-- ==== Sys2Proof/Word.lean ====
section
/-!
DEFINITION. The widths the spec gives its values (00_scope.md R9, 20_memory.md R50).
-/
namespace Sys2Proof

/-- An operation word: every operation is one 16-bit word (R72). -/
abbrev Word := BitVec 16

/-- A table word, a buffer slot's contents, an emitted sample: 12 bits (R9, R50). -/
abbrev Sample := BitVec 12

/-- The address of a buffer slot: 8 bits (R9, R50). -/
abbrev Slot := BitVec 8

/-- The bit pattern of an IEEE 754 binary32 value (R12). -/
abbrev F32 := BitVec 32

/-- The index of one of the 12 voices (R23). -/
abbrev Voice := Fin 12

/-- One half of the output buffer: slots 0 to 127 or slots 128 to 255 (R31). -/
inductive Half where
  | half0
  | half1
deriving DecidableEq, Repr, Inhabited

end Sys2Proof
end

