-- ==== Sys2Proof/Syntax.lean ====
section
/-!
DEFINITION. The five operations of the block, one constructor per row of
spec/opcode_table.json (30_encoding.md R73). Host words that name no operation are
kept apart from NOP by the decoder's result type (Decode.lean, `HostWord`; R76).
-/
namespace Sys2Proof

/-- The operations (R73). -/
inductive Instr where
  /-- `NOP` (R101). Its bits 11:0 are ignored (R70); they are kept here so that the term
  names the one word it stands for. -/
  | nop (ignored : BitVec 12)
  /-- `SETACT n, v` (R102): the note field `cmd[11:8]` and the value bit `cmd[0]` (R74). -/
  | setact (note : BitVec 4) (v : Bool)
  /-- `TICK` (R130), the sample clock's step. -/
  | tick
  /-- `ARBSTART` (R131), the arbiter's step. -/
  | arbstart
  /-- `GENSLOT` (R110), the generator's step. -/
  | genslot
deriving DecidableEq, Repr, Inhabited

end Sys2Proof
end

