-- ==== Sys2Proof/WellFormed.lean ====
section
/-!
DEFINITION. Which terms of `Instr` name an operation of the block.
-/
namespace Sys2Proof

/-- A note field is legal when it names one of the 12 voices (R70: legal values 0 to 11). -/
def noteLegal (note : BitVec 4) : Bool := decide (note.toNat ≤ 11)

/-- The one constraint of the opcode table: `SETACT` has `NOTE` at most 11 (R73, R102). -/
def Instr.wellFormed : Instr → Bool
  | .nop _ => true
  | .setact note _ => noteLegal note
  | .tick => true
  | .arbstart => true
  | .genslot => true

/-- The operations the host may issue (R163): the format-H ones (R70). -/
def Instr.isHost : Instr → Bool
  | .nop _ => true
  | .setact _ _ => true
  | .tick => false
  | .arbstart => false
  | .genslot => false

end Sys2Proof
end

