-- ==== Sys2Proof/Decode.lean ====
section
/-!
DEFINITION. The decoders of the two kinds of word (30_encoding.md) and the encoder.
A format-H word is what the host port takes (R70, R75); a format-E word names a step of
another agent (R71). Both decoders are total on 16-bit words.
-/
namespace Sys2Proof

/-- Field `OP`, bits 15:12 (R70, R71). -/
def fieldOp (w : Word) : BitVec 4 := w.extractLsb' 12 4

/-- Field `NOTE`, bits 11:8 (R70). -/
def fieldNote (w : Word) : BitVec 4 := w.extractLsb' 8 4

/-- Field `RSV`, bits 7:1 (R70). -/
def fieldRsv (w : Word) : BitVec 7 := w.extractLsb' 1 7

/-- Field `V`, bit 0 (R70). -/
def fieldV (w : Word) : Bool := w.getLsbD 0

/-- Bits 11:0: ignored in `NOP` (R70), zero in an event word (R71). -/
def fieldLow (w : Word) : BitVec 12 := w.extractLsb' 0 12

/-- What a word taken on the host port stands for (R75). An ignored word stays distinct
from `NOP` and keeps its bits, so that a trace shows which word was sent (R76). -/
inductive HostWord where
  | op (i : Instr)
  | ignored (w : Word)
deriving DecidableEq, Repr

/-- Why a word names no step (R155). -/
inductive DecodeError where
  | badEventWord (w : Word)
deriving DecidableEq, Repr

/-- `decode_host` (R75). -/
def decodeHost (w : Word) : HostWord :=
  if fieldOp w = 0 then .op (.nop (fieldLow w))
  else if fieldOp w = 1 ∧ fieldRsv w = 0 ∧ noteLegal (fieldNote w) = true then
    .op (.setact (fieldNote w) (fieldV w))
  else .ignored w

/-- The step an event word names (R71, R73); any other word is refused by name (R155). -/
def decodeEvent (w : Word) : Except DecodeError Instr :=
  if fieldLow w = 0 then
    if fieldOp w = 8 then .ok .tick
    else if fieldOp w = 9 then .ok .arbstart
    else if fieldOp w = 10 then .ok .genslot
    else .error (.badEventWord w)
  else .error (.badEventWord w)

/-- Bit 15 tells the format: 0 is H, 1 is E (R72). -/
def isEventFormat (w : Word) : Bool := w.getLsbD 15

/-- The operation a word names in the format its bit 15 gives it (R72). -/
def decodeWord (w : Word) : Option Instr :=
  if isEventFormat w then
    match decodeEvent w with
    | .ok i => some i
    | .error _ => none
  else
    match decodeHost w with
    | .op i => some i
    | .ignored _ => none

/-- The word of an operation (R70, R71, R77). -/
def encode : Instr → Word
  | .nop low => 0x0#4 ++ low
  | .setact note v => ((0x1#4 ++ note) ++ 0x00#7) ++ BitVec.ofBool v
  | .tick => 0x8000#16
  | .arbstart => 0x9000#16
  | .genslot => 0xA000#16

/-- The word whose low `nbits` bits are those of `w`, its other bits zero. Every operation word has 16
bits (R72), and what a bit count other than 16 names is the model's DESIGN CHOICE (log entry 21): with
fewer, the bits above are zero; with more, those above the 16th are dropped. In both, and with 16, the
bits of the number `w` above its `nbits` are dropped. -/
def tableWord (nbits w : Nat) : Word := BitVec.ofNat 16 (w % 2 ^ nbits)

/-- The operation the decoders read from a word numbered as spec/opcode_table.json numbers
it. Every operation is one 16-bit word (R72). DESIGN CHOICE (log entry 21): a bit count above 16 names
nothing, and a word given with fewer bits is read with zeros above them. -/
def decodeTableWord (nbits w : Nat) : Option Instr :=
  if nbits ≤ 16 then decodeWord (tableWord nbits w) else none

end Sys2Proof
end

