-- ==== Sys2Proof/Machine/Event.lean ====
section
/-!
DEFINITION. What can happen to the block in one step: a clock edge, or an atomic step of one
of its four agents (00_scope.md R10, 20_memory.md R61). An execution is one total order of
these.
-/
namespace Sys2Proof

/-- One step of the environment or of an agent. -/
inductive Event where
  /-- A rising edge of `clk` that samples `rst` (R37, R170). -/
  | clkEdge (rst : Bool)
  /-- A word taken on `cmd` with `cmd_valid` high (R37, R75). -/
  | hostCmd (w : Word)
  /-- A step of the sample clock, the arbiter or the generator, named by its event word (R71). -/
  | agentStep (w : Word)
deriving DecidableEq, Repr, Inhabited

end Sys2Proof
end

