-- ==== Sys2Proof/Config.lean ====
section
/-!
DEFINITION. What an implementation fixes (00_scope.md R7, R8), the configuration (10_state.md
R27), and the free values: opaque constants about which nothing can be proved.
-/
namespace Sys2Proof

/-- The configuration: the parameters the block is built with (R7), each a field with R7's value,
and `PHASE_STEP[0..11]` (R27). No step writes it (R29). The last field holds the parameters to R7's
values, from which the widths of the state follow (R9). -/
structure Config where
  /-- `NOTE_COUNT` (R7). -/
  noteCount : Nat := 12
  /-- `TABLE_SIZE` (R7). -/
  tableSize : Nat := 256
  /-- `SAMPLE_RATE`, samples per second (R7). -/
  sampleRate : Nat := 48000
  /-- `BUFFER_SIZE`, slots (R7). -/
  bufferSize : Nat := 256
  /-- `HALF_SIZE`, slots (R7). -/
  halfSize : Nat := bufferSize / 2
  /-- `REF_FREQ`, Hz (R7). -/
  refFreq : Nat := 440
  /-- `REF_INDEX` (R7). -/
  refIndex : Nat := 9
  /-- `MAX_OUT` (R7). -/
  maxOut : Nat := 4095
  /-- `PHASE_STEP[0..11]` (R27). -/
  phaseStep : Vector F32 12
  /-- R7: the block is built with these constants. -/
  built : noteCount = 12 ∧ tableSize = 256 ∧ sampleRate = 48000 ∧ bufferSize = 256 ∧
    halfSize = 128 ∧ refFreq = 440 ∧ refIndex = 9 ∧ maxOut = 4095 := by decide
deriving DecidableEq, Repr

/-- `AMPLITUDE` = `MAX_OUT` (R8). -/
def Config.amplitude (c : Config) : Nat := c.maxOut
/-- `MID` = `maxOutputValue/2` by integer division (R8): silence. -/
def Config.mid (c : Config) : Nat := c.maxOut / 2

/-- `GEN_SLOT_CYCLES`, left open (R8, R181). No rule depends on it. -/
opaque Config.genSlotCycles : Nat
/-- `ARB_CYCLES`, left open (R8, R181). No rule depends on it. -/
opaque Config.arbCycles : Nat

/-- FREE VALUE `BUFFER_INIT[slot]` after reset number `resets` (R31, R173: a fresh draw). -/
opaque Config.bufferInit : (resets slot : Nat) → Sample
/-- FREE VALUE of `sample_out` after reset number `resets`, until the first TICK (R38, R173). -/
opaque Config.sampleOutInit : (resets : Nat) → Sample
/-- FREE VALUE: which event happens at turn `turn` when no event is placed. The spec admits
every order of the agents' steps (R61, R159) that is weakly fair (R139). -/
opaque Config.freeEvent : (turn : Nat) → Event
/-- FREE VALUE: how many free choices in a row, from turn `since` on, may pass over an enabled step of
the arbiter or the generator. Weak fairness (R139) bounds no wait, it only makes each one finite. -/
opaque Config.freePatience : (since : Nat) → Nat

end Sys2Proof
end

