-- ==== Sys2Proof/Machine/Float.lean ====
section
/-!
DEFINITION. The binary32 arithmetic of 00_scope.md R12: exact on integers counted in units
of 2^-149 (every finite binary32 value is a whole number of them), rounded once at the end.
PRESUMED: the layout of binary32 is general knowledge (93_implementation_defined.md G1).
-/
namespace Sys2Proof.Machine

/-- The sign bit. -/
def f32Negative (b : F32) : Bool := b.getLsbD 31

/-- The biased exponent, bits 30:23. -/
def f32Exponent (b : F32) : Nat := (b.extractLsb' 23 8).toNat

/-- The fraction, bits 22:0. -/
def f32Fraction (b : F32) : Nat := (b.extractLsb' 0 23).toNat

/-- Neither infinite nor NaN. -/
def f32Finite (b : F32) : Bool := decide (f32Exponent b ≠ 255)

/-- The magnitude of a finite value, in units of 2^-149. -/
def f32Magnitude (b : F32) : Nat :=
  if f32Exponent b = 0 then f32Fraction b
  else (2 ^ 23 + f32Fraction b) * 2 ^ (f32Exponent b - 1)

/-- The exact value of a finite `b`, in units of 2^-149. -/
def f32Units (b : F32) : Int :=
  if f32Negative b then -(f32Magnitude b : Int) else f32Magnitude b

/-- How many low bits of the magnitude `n` a 24-bit significand drops. -/
def dropBits (n : Nat) : Nat := n.log2 + 1 - 24

/-- The significand kept of `n`: the nearest, ties to even (R12). -/
def nearestEven (n d : Nat) : Nat :=
  let q := n / 2 ^ d
  let r := n % 2 ^ d
  if 2 ^ d < 2 * r ∨ (2 * r = 2 ^ d ∧ q % 2 = 1) then q + 1 else q

/-- The bit pattern of the binary32 value nearest to `n` units. Adding the significand,
hidden bit included, to the exponent field carries a rounded-up significand into it. -/
def roundMagnitude (n : Nat) : Nat := dropBits n * 2 ^ 23 + nearestEven n (dropBits n)

/-- The bit pattern of infinity, what too large a magnitude rounds to. -/
def f32InfinityBits : Nat := 0x7F800000

/-- `rne32` (R12): the binary32 value nearest to `z` units of 2^-149, ties to even; zero is `+0.0`. -/
def rne32 (z : Int) : F32 :=
  let m := min (roundMagnitude z.natAbs) f32InfinityBits
  BitVec.ofNat 32 (if z < 0 then 2 ^ 31 + m else m)

/-- `a +32 b` (R12), for finite `a` and `b`. -/
def f32Add (a b : F32) : F32 := rne32 (f32Units a + f32Units b)

/-- `a -32 b` (R12), for finite `a` and `b`. -/
def f32Sub (a b : F32) : F32 := rne32 (f32Units a - f32Units b)

/-- One whole table step, 1.0, in units of 2^-149. -/
def unitsOfOne : Nat := 2 ^ 149

/-- A natural number as a binary32 value (R12). -/
def f32OfNat (n : Nat) : F32 := rne32 ((n * unitsOfOne : Nat) : Int)

/-- `a >= b`, the exact comparison of R12, for finite `a` and `b`. -/
def f32AtLeast (a b : F32) : Bool := decide (f32Units b ≤ f32Units a)

/-- `256.0`, the bound of R28 and R118. -/
def f32TableSize : F32 := 0x43800000#32

/-- `p >= 256.0`, for finite `p`. -/
def atLeastTableSize (p : F32) : Bool := f32AtLeast p f32TableSize

/-- `floor(p)` for `p` in `[0, 256)` (R12). -/
def f32Floor (p : F32) : Nat := (f32Units p / (unitsOfOne : Int)).toNat

/-- Finite, not negative (negative zero excluded) and below `256.0`: what R28 asks of a phase
step and R118 says of every phase. -/
def inCycle (b : F32) : Bool :=
  f32Finite b && !f32Negative b && !atLeastTableSize b

/-- One phase advance (R115) with its one wrap by `TABLE_SIZE` (R116). -/
def advancePhase (c : Config) (phase step : F32) : F32 :=
  let size := f32OfNat c.tableSize
  let p := f32Add phase step
  if f32AtLeast p size then f32Sub p size else p

end Sys2Proof.Machine
end

