-- ==== Sys2Proof/Machine/PhaseSteps.lean ====
section
/-!
DEFINITION. The default configuration (10_state.md R27) and the check a configuration must
pass before the block runs (10_state.md R28, 60_exceptions.md R152).
-/
namespace Sys2Proof.Machine

/-- The 12 `PHASE_STEP` words of R27. -/
def defaultPhaseStep : Vector F32 12 :=
  #v[0x3FB29A62, 0x3FBD392D, 0x3FC879A3, 0x3FD46562, 0x3FE10697, 0x3FEE680F,
     0x3FFC9536, 0x4005CD15, 0x400DC1E1, 0x40162FC9, 0x401F1E03, 0x4028942E]

/-- The configuration the block is built with (R27). -/
def defaultConfig : Config := { phaseStep := defaultPhaseStep }

/-- The voices, in index order (R23). -/
def voices : List Voice := [0, 1, 2, 3, 4, 5, 6, 7, 8, 9, 10, 11]

/-- `PHASE_STEP[j]` meets R28. -/
def stepLegal (c : Config) (j : Voice) : Bool := inCycle c.phaseStep[j]

/-- The first voice whose step breaks R28, if there is one: the `j` of `ConfigRefused(j)` (R152). -/
def illFormedStep (c : Config) : Option Voice := voices.find? fun j => !stepLegal c j

/-- A configuration is well formed when every step meets R28. -/
def configLegal (c : Config) : Bool := (illFormedStep c).isNone

end Sys2Proof.Machine
end

