-- ==== Sys2Proof/Machine/State.lean ====
section
/-!
DEFINITION. The state of the block (10_state.md R41), as plain data, and its value at reset.
-/
namespace Sys2Proof.Machine

/-- Why the model stops. The hardware raises no exception (R150). -/
inductive Fault where
  /-- `NotEnabled(step)` (R154): raised by ARBSTART and GENSLOT, and by a placed ARBSTART or
  GENSLOT while `rst` is high, where the block has no such step to take. Safe: the hardware
  takes no step there either. -/
  | notEnabled (i : Instr)
  /-- Raised by GENSLOT for an active voice whose phase is outside `[+0.0, 256)`, so that
  `TABLE` has no word at its integer part (R54). R118 shows that no run reaches such a
  state. Safe: the model stops. -/
  | phaseOutOfCycle (voice : Nat)
deriving DecidableEq, Repr

/-- What the model turns away before it runs it. -/
inductive Refusal where
  /-- Raised by `exec` for an instruction that has no meaning yet. Safe: the model stops. -/
  | notModelled (mnemonic : String)
  /-- `BadEventWord(w)` (R155): raised by the syntax layer for an event word that names no
  step. Safe: such a word never reaches the hardware. -/
  | badEventWord (w : Word)
  /-- `ConfigRefused(j)` (R152): raised before every step, and by GENSLOT, under a configuration
  whose `PHASE_STEP[j]` breaks R28. Safe: the source gives such a configuration no behaviour. -/
  | configRefused (voice : Nat)
deriving DecidableEq, Repr

/-- The written slots of the output buffer `BUF` (R31): slot and contents, slots strictly
rising. An unlisted slot holds its reset draw. -/
abbrev Memory := List (Nat × Sample)

/-- The state of the block (R41), then the model's own fields. -/
structure State where
  /-- `phase[0..11]` (R24). -/
  phase : Vector F32 12
  /-- `ACT[11:0]`, bit `j` is `active[j]` (R25). -/
  act : BitVec 12
  /-- `BUF[0..255]` (R31). -/
  buf : Memory
  /-- `cursor` (R32). -/
  cursor : Slot
  /-- `pending[0]` (R35). -/
  pending0 : Bool
  /-- `pending[1]` (R35). -/
  pending1 : Bool
  /-- `gen_busy` (R33). -/
  genBusy : Bool
  /-- `gen_half` (R33). -/
  genHalf : Half
  /-- `gen_idx` (R34). -/
  genIdx : BitVec 7
  /-- `sample_out` (R38). -/
  sampleOut : Sample
  /-- `sample_strobe` (R37). -/
  sampleStrobe : Bool
  /-- The level of `rst` that the last clock edge sampled (R37, R170). -/
  rst : Bool
  /-- `out`: every value emitted, in order (R40, model only). -/
  out : List Sample
  /-- `deadline_miss` (R40, R156, model only). -/
  deadlineMiss : Bool
  /-- The configuration the block was built with (R27); no step writes it (R29). -/
  cfg : Config
  /-- The model's own: how many resets came before, which names the draws of R173. -/
  resets : Nat
  /-- The model's own: the events placed to happen next, the first at the head. -/
  queue : List Event
  /-- The model's own: how many free choices of an event were made. -/
  turn : Nat
  /-- The model's own: how many free choices in a row passed over the enabled step of the arbiter or
  the generator, which is fair (R139). -/
  passed : Nat
deriving DecidableEq, Repr

/-- The reset state of R41 under a configuration, after `resets` earlier resets. -/
def State.initial (cfg : Config) (resets : Nat) : State where
  phase := Vector.replicate 12 0x00000000#32
  act := 0
  buf := []
  cursor := 0
  pending0 := false
  pending1 := false
  genBusy := false
  genHalf := .half0
  genIdx := 0
  sampleOut := Config.sampleOutInit resets
  sampleStrobe := false
  rst := false
  out := []
  deadlineMiss := false
  cfg := cfg
  resets := resets
  queue := []
  turn := 0
  passed := 0

/-- The block right after reset (R41, R173), under the default configuration (R27). -/
def State.reset : State := State.initial defaultConfig 0

end Sys2Proof.Machine
end

