-- ==== Sys2Proof/Machine/Operands.lean ====
section
/-!
DEFINITION. How the operations find what they act on: the note operand (30_encoding.md R74),
halves and slots (10_state.md R31, R34), the active set (41_sample_generator.md R111, R112) and
the table word of a voice (R113).
-/
namespace Sys2Proof.Machine

/-- The voice a note field selects, unsigned and unscaled (R74); 12 to 15 name none (R75). -/
def noteVoice (c : Config) (note : BitVec 4) : Option Voice :=
  if h : note.toNat < c.noteCount then some ⟨note.toNat, c.built.1 ▸ h⟩ else none

/-- The number of a half, its first slot being `HALF_SIZE` times it (R31, R34). -/
def halfNumber : Half → Nat
  | .half0 => 0
  | .half1 => 1

/-- The half numbered `1 - h`. -/
def otherHalf : Half → Half
  | .half0 => .half1
  | .half1 => .half0

/-- The half a slot lies in: `slot div HALF_SIZE` (R31, R32). -/
def halfOf (c : Config) (slot : Slot) : Half :=
  if slot.toNat / c.halfSize = 0 then .half0 else .half1

/-- `gen_half * HALF_SIZE + gen_idx` (R34). -/
def slotAt (c : Config) (h : Half) (idx : BitVec 7) : Slot :=
  BitVec.ofNat 8 (halfNumber h * c.halfSize + idx.toNat)

/-- `A[j]` (R25, R111). -/
def isActive (A : BitVec 12) (j : Voice) : Bool := A.getLsbD j

/-- The voices of the active set, in index order. -/
def activeVoices (A : BitVec 12) : List Voice := voices.filter (isActive A)

/-- `activeCount = popcount(A)` (R112). -/
def popcount (A : BitVec 12) : Nat := (activeVoices A).length

/-- `TABLE[floor(phase)]` for a phase in `[+0.0, 256)` (R113); outside it there is none (R54). -/
def voiceWord (phase : F32) : Option Sample :=
  if inCycle phase then tableRead (f32Floor phase) else none

/-- The exact sum of the table words of the active voices (R113, R114). -/
def mixSum (phase : Vector F32 12) (A : BitVec 12) : Nat :=
  ((activeVoices A).map fun j => ((voiceWord phase[j]).getD 0).toNat).sum

/-- The sample of a slot: `MID` with no voice active (R120), the sum of one voice undivided,
the floor-divided sum of several (R117). -/
def mixSample (c : Config) (phase : Vector F32 12) (A : BitVec 12) : Sample :=
  let k := popcount A
  if k = 0 then BitVec.ofNat 12 c.mid
  else BitVec.ofNat 12 (if 1 < k then mixSum phase A / k else mixSum phase A)

/-- The phases after one slot: the active voices advance, the others are held (R115). -/
def advancePhases (cfg : Config) (phase : Vector F32 12) (A : BitVec 12) : Vector F32 12 :=
  Vector.ofFn fun j : Voice =>
    if isActive A j then advancePhase cfg phase[j] cfg.phaseStep[j] else phase[j]

/-- The first active voice that has no table word, if there is one. -/
def unreadableVoice (phase : Vector F32 12) (A : BitVec 12) : Option Voice :=
  (activeVoices A).find? fun j => (voiceWord phase[j]).isNone

end Sys2Proof.Machine
end

