-- ==== Sys2Proof/Machine/Flags.lean ====
section
/-!
DEFINITION. The one-bit conditions the operations test. The block has no condition codes (10_state.md
R22); these are the arbiter's bookkeeping (R33, R35) and what it enables.
-/
namespace Sys2Proof.Machine

/-- `pending[h]` (R35). -/
def State.pending (s : State) : Half → Bool
  | .half0 => s.pending0
  | .half1 => s.pending1

/-- `gen_busy = 1 and gen_half = h`: a refill of `h` is in progress (R33). -/
def State.refilling (s : State) (h : Half) : Bool := s.genBusy && decide (s.genHalf = h)

/-- A refill of `h` is pending or in progress: the deadline test of R130 and R156. -/
def State.unrefilled (s : State) (h : Half) : Bool := s.pending h || s.refilling h

/-- `ARBSTART` is enabled (R131). -/
def State.arbEnabled (s : State) : Bool := !s.genBusy && (s.pending0 || s.pending1)

/-- `GENSLOT` is enabled (R110). -/
def State.genEnabled (s : State) : Bool := s.genBusy

/-- The half `ARBSTART` serves: the pending one; with both pending, the half the cursor is
not in (R131, R137). -/
def State.servedHalf (s : State) : Half :=
  if s.pending0 && s.pending1 then otherHalf (halfOf s.cfg s.cursor)
  else if s.pending0 then .half0
  else .half1

end Sys2Proof.Machine
end

