-- ==== Sys2Proof/Machine/Ops.lean ====
section
/-!
DEFINITION. The named operations over the buffer and the registers. The block takes no exception
(60_exceptions.md R150); its interrupt-like events are `State.notify`, their entry `State.serve`
(R160) and their return `State.nextPosition` at the 128th slot (R161).
-/
namespace Sys2Proof.Machine

/-- Every listed slot is above the bound `lo` and the slots rise strictly, below 256. -/
def Memory.risesFrom : Nat → Memory → Bool
  | _, [] => true
  | lo, (a, _) :: m => decide (lo ≤ a) && decide (a < 256) && Memory.risesFrom (a + 1) m

/-- The canonical form: slots below 256, strictly rising. -/
def Memory.wf (m : Memory) : Bool := Memory.risesFrom 0 m

/-- The written contents of a slot, if any step wrote it since reset. -/
def Memory.find : Memory → Nat → Option Sample
  | [], _ => none
  | (b, v) :: m, a => if a = b then some v else Memory.find m a

/-- Write one slot, keeping the slots rising. -/
def Memory.insert : Memory → Nat → Sample → Memory
  | [], a, v => [(a, v)]
  | (b, u) :: m, a, v =>
    if a < b then (a, v) :: (b, u) :: m
    else if a = b then (a, v) :: m
    else (b, u) :: Memory.insert m a v

/-- `MemRead(BUF:slot, 1)` (R13, R57): the latest write, or the reset draw (R31, R61). -/
def State.bufRead (s : State) (slot : Slot) : Sample :=
  (Memory.find s.buf slot.toNat).getD (Config.bufferInit s.resets slot.toNat)

/-- `MemWrite(BUF:slot, 1, v)` (R13, R57). -/
def State.bufWrite (s : State) (slot : Slot) (v : Sample) : State :=
  { s with buf := Memory.insert s.buf slot.toNat v }

/-- `active[j] <- v` (R102). -/
def State.setActive (s : State) (j : Voice) (v : Bool) : State :=
  { s with act := BitVec.ofFnLE fun i : Voice => if i = j then v else isActive s.act i }

/-- `emit(v)` (R13, R130): the sample output, its strobe (R37) and the observed stream (R40). -/
def State.emit (s : State) (v : Sample) : State :=
  { s with sampleOut := v, sampleStrobe := true, out := s.out ++ [v] }

/-- `cursor <- (cursor + 1) mod BUFFER_SIZE` (R130). -/
def State.advanceCursor (s : State) : State :=
  { s with cursor := BitVec.ofNat 8 ((s.cursor.toNat + 1) % s.cfg.bufferSize) }

/-- `pending[h] <- v` (R35). -/
def State.setPending (s : State) (h : Half) (v : Bool) : State :=
  match h with
  | .half0 => { s with pending0 := v }
  | .half1 => { s with pending1 := v }

/-- The cursor enters half `h`: the deadline test (R156), then the request to refill the other
half, the one just vacated (R132). A request already pending is merged (R136). -/
def State.notify (s : State) (h : Half) : State :=
  { s with deadlineMiss := s.deadlineMiss || s.unrefilled h }.setPending (otherHalf h) true

/-- The notification of a cursor that has just moved: "half consumed" at `HALF_SIZE`, "full
consumed" at 0, otherwise none (R130, R132). -/
def State.crossing (s : State) : State :=
  if s.cursor.toNat = s.cfg.halfSize then s.notify .half1
  else if s.cursor.toNat = 0 then s.notify .half0
  else s

/-- The arbiter serves half `h`: it clears the request and starts the generator at slot 0 of
the half, saving and masking nothing (R131, R160). -/
def State.serve (s : State) (h : Half) : State :=
  { s.setPending h false with genHalf := h, genIdx := 0#7, genBusy := true }

/-- The phases after one slot of the active set `A` (R115, R116). -/
def State.advanceVoices (s : State) (A : BitVec 12) : State :=
  { s with phase := advancePhases s.cfg s.phase A }

/-- The next position of the refill; after the last slot of the half the refill is complete (R110,
R121), which is the return of R161. -/
def State.nextPosition (s : State) : State :=
  if s.genIdx.toNat + 1 = s.cfg.halfSize then { s with genIdx := 0#7, genBusy := false }
  else { s with genIdx := s.genIdx + 1#7 }

/-- A rising edge of `clk` (R37, R170): it ends the strobe; with `rst` high it puts the block
in the reset state (R41, R173) with fresh draws. What is placed to happen next is the
environment's and stays. -/
def State.clockEdge (s : State) (rst : Bool) : State :=
  if rst then
    { State.initial s.cfg (s.resets + 1) with rst := true, queue := s.queue, turn := s.turn }
  else { s with rst := false, sampleStrobe := false }

/-- A refused configuration has no steps (R152). -/
def withConfig (cfg : Config) (k : Host.Outcome State Fault Refusal) :
    Host.Outcome State Fault Refusal :=
  match illFormedStep cfg with
  | some j => .refused (.configRefused j)
  | none => k

/-- The block started under a configuration: the reset state, or no initial state at all
(R152, R176). -/
def State.start (cfg : Config) : Host.Outcome State Fault Refusal :=
  withConfig cfg (.next (State.initial cfg 0))

end Sys2Proof.Machine
end

