-- ==== Sys2Proof/Machine/OscillatorBank.lean ====
section
/-!
DEFINITION. The host's operations (40_oscillator_bank.md): NOP and SETACT. Both are accepted in the
step they arrive (R100).
-/
namespace Sys2Proof.Machine

/-- `NOP` (R101): no state is read or written, whatever the ignored bits. -/
def execNop (_ : BitVec 12) (s : State) : Host.Outcome State Fault Refusal := .next s

/-- `SETACT n, v` (R102): writes `active[n]` and nothing else. A note field of 12 to 15 names
no voice and changes nothing (R75); the decoder never yields one. -/
def execSetact (note : BitVec 4) (v : Bool) (s : State) : Host.Outcome State Fault Refusal :=
  match noteVoice s.cfg note with
  | some j => .next (s.setActive j v)
  | none => .next s

/-- A host word that names no operation is ignored: no state change, no outcome (R75, R76). -/
def ignoreHostWord (_ : Word) (s : State) : Host.Outcome State Fault Refusal := .next s

end Sys2Proof.Machine
end

