-- ==== Sys2Proof/Machine/SampleGenerator.lean ====
section
/-!
DEFINITION. The generator's operation (41_sample_generator.md): GENSLOT.
-/
namespace Sys2Proof.Machine

/-- The state after one slot of the refill in progress, with the one snapshot `A` of the active
flags used for the count, the sum and the advance (R110, R111). -/
def State.genSlot (s : State) : State :=
  let A := s.act
  (((s.bufWrite (slotAt s.cfg s.genHalf s.genIdx) (mixSample s.cfg s.phase A)).advanceVoices A).nextPosition)

/-- `GENSLOT` (R110): enabled only while a refill is in progress; elsewhere the generator has
no step (R154). -/
def execGenslot (s : State) : Host.Outcome State Fault Refusal :=
  if s.genEnabled then
    withConfig s.cfg <|
      match unreadableVoice s.phase s.act with
      | some j => .fault (.phaseOutOfCycle j)
      | none => .next s.genSlot
  else .fault (.notEnabled .genslot)

end Sys2Proof.Machine
end

