-- ==== Sys2Proof/Machine/TransferRefill.lean ====
section
/-!
DEFINITION. The output side's operations (42_transfer_refill.md): TICK and ARBSTART.
-/
namespace Sys2Proof.Machine

/-- The state after a tick: the slot under the cursor is emitted, then the cursor moves, and a
boundary it reaches raises its notification in the same step (R130, R133). -/
def State.drain (s : State) : State := ((s.emit (s.bufRead s.cursor)).advanceCursor).crossing

/-- `TICK` (R130): always enabled. -/
def execTick (s : State) : Host.Outcome State Fault Refusal := .next s.drain

/-- `ARBSTART` (R131): enabled only with no refill in progress and a request pending; elsewhere
the arbiter has no step (R154). -/
def execArbstart (s : State) : Host.Outcome State Fault Refusal :=
  if s.arbEnabled then .next (s.serve s.servedHalf) else .fault (.notEnabled .arbstart)

end Sys2Proof.Machine
end

