-- ==== Sys2Proof/Machine/Dispatch.lean ====
section
/-!
DEFINITION. The meaning of each operation, one direct call per constructor.
-/
namespace Sys2Proof.Machine

def exec (i : Instr) (s : State) : Host.Outcome State Fault Refusal :=
  match i with
  | .nop low => Sys2Proof.Machine.execNop low s
  | .setact note v => Sys2Proof.Machine.execSetact note v s
  | .tick => Sys2Proof.Machine.execTick s
  | .arbstart => Sys2Proof.Machine.execArbstart s
  | .genslot => Sys2Proof.Machine.execGenslot s

end Sys2Proof.Machine
end

