-- ==== Sys2Proof/Machine/Schedule.lean ====
section
/-!
DEFINITION. How events reach the agents: the ports (10_state.md R37), reset (70_reset_and_hazards.md
R170), the placed events and the free order of those that are not placed (20_memory.md R61).
-/
namespace Sys2Proof.Machine

/-- A word taken on `cmd` (R75). While `rst` is high it is ignored (R170). -/
def State.takeHostCmd (s : State) (w : Word) : Host.Outcome State Fault Refusal :=
  if s.rst then .next s
  else
    match decodeHost w with
    | .op i => exec i s
    | .ignored w => ignoreHostWord w s

/-- A step that does not come from the host, named by its event word (R71). While `rst` is
high a tick is lost, and the arbiter and the generator have no step (R170, R154). -/
def State.takeAgentStep (s : State) (w : Word) : Host.Outcome State Fault Refusal :=
  match decodeEvent w with
  | .error (.badEventWord w) => .refused (.badEventWord w)
  | .ok i => if s.rst then (if i = .tick then .next s else .fault (.notEnabled i)) else exec i s

/-- One event happens. -/
def State.take (s : State) : Event → Host.Outcome State Fault Refusal
  | .clkEdge rst => .next (s.clockEdge rst)
  | .hostCmd w => s.takeHostCmd w
  | .agentStep w => s.takeAgentStep w

/-- The event can happen in `s`: a step that is not enabled does not happen (R154). -/
def State.admits (s : State) : Event → Bool
  | .clkEdge _ => true
  | .hostCmd _ => true
  | .agentStep w =>
    match decodeEvent w with
    | .ok .tick => true
    | .ok .arbstart => !s.rst && s.arbEnabled
    | .ok .genslot => !s.rst && s.genEnabled
    | _ => false

/-- The enabled step of the arbiter or the generator (R131, R110): at most one of the two is
enabled, and none while `rst` is high (R170). -/
def State.enabledStep (s : State) : Option Event :=
  if s.rst then none
  else if s.arbEnabled then some (.agentStep 0x9000#16)
  else if s.genEnabled then some (.agentStep 0xA000#16)
  else none

/-- The free event of this turn, or an idle clock cycle if that event cannot happen here (R61, R154,
R159). -/
def State.freeOrIdle (s : State) : Event :=
  let e := Config.freeEvent s.turn
  if s.admits e then e else .clkEdge s.rst

/-- The enabled step was passed over as often as its wait allows, which is a free number, drawn at the
turn on which the wait began (R139). -/
def State.patienceSpent (s : State) : Bool :=
  decide (Config.freePatience (s.turn - s.passed) ≤ s.passed)

/-- The event that happens when none is placed: the enabled step of the arbiter or the generator once
its wait is over, so that both are weakly fair (R139), and otherwise any event that can happen. -/
def State.freeChoice (s : State) : Event :=
  match s.enabledStep with
  | some e => if s.patienceSpent then e else s.freeOrIdle
  | none => s.freeOrIdle

/-- The length of the enabled step's wait after the free choice. -/
def State.passedNext (s : State) : Nat :=
  match s.enabledStep with
  | some e => if s.freeChoice = e then 0 else s.passed + 1
  | none => 0

/-- What happens next: the first placed event, else the free choice. -/
def State.nextEvent (s : State) : Event :=
  match s.queue with
  | e :: _ => e
  | [] => s.freeChoice

/-- The state with the next event taken off the queue, or its free choice counted. -/
def State.consume (s : State) : State :=
  match s.queue with
  | _ :: rest => { s with queue := rest }
  | [] => { s with turn := s.turn + 1, passed := s.passedNext }

/-- One step of the block: none at all under a refused configuration (R152). -/
def State.advance (s : State) : Host.Outcome State Fault Refusal := withConfig s.cfg (s.consume.take s.nextEvent)

/-- The event that presents a word where its format belongs: a format-H word on the host port,
a format-E word as an event (R72). -/
def eventOfWord (w : Word) : Event := if isEventFormat w then .agentStep w else .hostCmd w

/-- Place the word as the next event, with `rst` released so that the block takes it. -/
def State.place (s : State) (w : Word) : State :=
  { s with rst := false, queue := eventOfWord w :: s.queue }

end Sys2Proof.Machine
end

