-- ==== Sys2Proof/Machine/Step.lean ====
section
/-!
DEFINITION. One step of the block, and where the next operation is placed.
-/
namespace Sys2Proof.Machine

/-- One atomic step (20_memory.md R61). -/
def step (s : State) : Host.Outcome State Fault Refusal := s.advance

/-- `s` with the operation whose bits are `w` placed as the next event, on the port its bit 15 gives
(log entry 13). DESIGN CHOICE (log entry 21): of a word given with more than 16 bits the low 16 are
placed, although `decodeTableWord` answers nothing for it, and one given with fewer is placed with zeros
above them. -/
def State.withFetchWord (s : State) (nbits w : Nat) : State := s.place (tableWord nbits w)

end Sys2Proof.Machine
end

