-- ==== Sys2Proof/Machine/Assemble.lean ====
section
/-!
DEFINITION. The assembly lines and pseudo-instructions of 30_encoding.md R77 and R78, as abstract
syntax, and the events each line stands for, in order.
-/
namespace Sys2Proof.Machine

/-- One line of a program (R77, R78). -/
inductive AsmLine where
  | nop
  | setact (n v : Nat)
  | tick
  | arbstart
  | genslot
  /-- `.word`, the given word on the host port. -/
  | word (w : Word)
  | noteOn (n : Nat)
  | noteOff (n : Nat)
  | allOff
  | ticks (k : Nat)
  | refill
  | genslots (k : Nat)
deriving DecidableEq, Repr

/-- Why the assembler refuses a line. -/
inductive AsmError where
  /-- `SETACT` with `n` outside 0..11 or `v` outside 0..1 (R77). -/
  | operandOutOfRange (n v : Nat)
deriving DecidableEq, Repr

/-- The event of an operation: host operations on the port, the others as event words. -/
def eventOf (i : Instr) : Event := eventOfWord (encode i)

/-- `SETACT n, v` (R77). -/
def assembleSetact (n v : Nat) : Except AsmError (List Event) :=
  if n ≤ 11 ∧ v ≤ 1 then .ok [eventOf (.setact (BitVec.ofNat 4 n) (v == 1))]
  else .error (.operandOutOfRange n v)

/-- The events of one line (R77, R78). -/
def assembleLine : AsmLine → Except AsmError (List Event)
  | .nop => .ok [eventOf (.nop 0)]
  | .setact n v => assembleSetact n v
  | .tick => .ok [eventOf .tick]
  | .arbstart => .ok [eventOf .arbstart]
  | .genslot => .ok [eventOf .genslot]
  | .word w => .ok [.hostCmd w]
  | .noteOn n => assembleSetact n 1
  | .noteOff n => assembleSetact n 0
  | .allOff => .ok (voices.map fun n => eventOf (.setact (BitVec.ofNat 4 n.val) false))
  | .ticks k => .ok (List.replicate k (eventOf .tick))
  | .refill => .ok (eventOf .arbstart :: List.replicate 128 (eventOf .genslot))
  | .genslots k => .ok (List.replicate k (eventOf .genslot))

/-- The events of a program, line by line; the first refused line refuses it. -/
def assemble : List AsmLine → Except AsmError (List Event)
  | [] => .ok []
  | l :: ls =>
    match assembleLine l, assemble ls with
    | .ok es, .ok rest => .ok (es ++ rest)
    | .error e, _ => .error e
    | .ok _, .error e => .error e

end Sys2Proof.Machine
end

