-- ==== Sys2Proof/Safety.lean ====
section
/-!
DEFINITION. The terms claims use: what a good state is, which runs are fair, and what the deadline
asks.
-/
namespace Sys2Proof.Machine

/-- Every phase is in `[+0.0, 256)` (41_sample_generator.md R118). -/
def State.phasesLegal (s : State) : Prop := ∀ j : Voice, inCycle s.phase[j] = true

/-- Every slot written since reset holds a value in `[0, 4094]` (R119). -/
def State.bufInRange (s : State) : Prop :=
  ∀ (a : Nat) (v : Sample), Memory.find s.buf a = some v → v.toNat ≤ 4094

/-- The good states: every step keeps them and reset is one. -/
structure State.Good (s : State) : Prop where
  /-- The configuration meets R28. -/
  cfg_legal : configLegal s.cfg = true
  /-- R118. -/
  phases : s.phasesLegal
  /-- The buffer is in canonical form. -/
  buf_wf : Memory.wf s.buf = true
  /-- R119. -/
  buf_range : s.bufInRange

/-- With no miss observed, no refill of the half the cursor is in is pending or in progress
(60_exceptions.md R157). -/
def State.quietHalf (s : State) : Prop :=
  s.deadlineMiss = false → s.unrefilled (halfOf s.cfg s.cursor) = false

/-- The cursor counts the samples emitted since reset (42_transfer_refill.md R134). -/
def State.cursorCounts (s : State) : Prop := s.cursor.toNat = s.out.length % 256

/-- While fewer than 128 samples were emitted nothing was requested or written; while fewer than 256,
nothing of half 1; and the first 256 samples are the reset draws (42_transfer_refill.md R141). -/
structure State.FirstRevolution (s : State) : Prop where
  counts : s.cursorCounts
  no_request : s.out.length < 128 →
    s.pending0 = false ∧ s.pending1 = false ∧ s.genBusy = false ∧ s.buf = []
  only_half0 : s.out.length < 256 →
    s.pending1 = false ∧ s.refilling .half1 = false ∧ ∀ a, 128 ≤ a → Memory.find s.buf a = none
  draws : ∀ k, k < 256 → k < s.out.length → s.out[k]? = some (Config.bufferInit s.resets k)

/-- While `rst` is held the block is in the reset state of R41. R170 (70_reset_and_hazards.md) says so
of the cycle in which `rst` falls; that it holds from the first edge that samples `rst` high is the
model's inference (log entry 9), the draws are those of the last such edge (log entry 5), and what the
environment holds is not reset (log entry 19). -/
def State.heldInReset (s : State) : Prop :=
  s.rst = true →
    s = { State.initial s.cfg s.resets with rst := true, queue := s.queue, turn := s.turn }

/-- An order of events without end, each happening in the state the one before it left (20_memory.md
R61), under a configuration that has steps (60_exceptions.md R152). -/
structure EventOrder (e : Nat → Event) (r : Nat → State) : Prop where
  cfg_legal : configLegal (r 0).cfg = true
  takes : ∀ n, (r n).take (e n) = .next (r (n + 1))

/-- The arbiter is weakly fair in an order of events (42_transfer_refill.md R139). -/
def ArbiterFair (e : Nat → Event) (r : Nat → State) : Prop :=
  ∀ n, ∃ m, n ≤ m ∧ ((r m).arbEnabled = false ∨ e m = .agentStep 0x9000#16)

/-- The generator is weakly fair in an order of events (R139). -/
def GeneratorFair (e : Nat → Event) (r : Nat → State) : Prop :=
  ∀ n, ∃ m, n ≤ m ∧ ((r m).genEnabled = false ∨ e m = .agentStep 0xA000#16)

/-- An execution without end: an order of events in which the arbiter and the generator are weakly fair
(42_transfer_refill.md R139). -/
structure Execution (e : Nat → Event) (r : Nat → State) : Prop extends EventOrder e r where
  arbiter_fair : ArbiterFair e r
  generator_fair : GeneratorFair e r

/-- The state after `n` steps; a step that does not answer a next state leaves it. -/
def State.run (s : State) : Nat → State
  | 0 => s
  | n + 1 =>
    match step (s.run n) with
    | .next t => t
    | .fault _ => s.run n
    | .refused _ => s.run n

/-- The state without the fields that order the events (log entries 1, 2 and 22). -/
def State.withoutSchedule (s : State) : State := { s with queue := [], turn := 0, passed := 0 }

/-- The events happen one after the other, each in the state the one before left. -/
def State.takeAll (s : State) : List Event → Host.Outcome State Fault Refusal
  | [] => .next s
  | e :: es =>
    match s.take e with
    | .next t => t.takeAll es
    | .fault f => .fault f
    | .refused r => .refused r

/-- The state without the two observations that no operation reads (10_state.md R40). -/
def State.withoutObservations (s : State) : State := { s with out := [], deadlineMiss := false }

/-- The events of a whole refill with no other agent's step between them (30_encoding.md R78). -/
def refillEvents : List Event :=
  eventOf .arbstart :: List.replicate 128 (eventOf .genslot)

/-- What may fall between the steps of a refill: a host word, a tick, a clock edge that samples `rst`
low (00_scope.md R10, 20_memory.md R63). -/
def otherAgent : Event → Bool
  | .clkEdge rst => !rst
  | .hostCmd _ => true
  | .agentStep w => decide (w = 0x8000#16)

/-- The events are `n` `GENSLOT` steps with any steps of other agents before, between and after
them (30_encoding.md R78: a refill is not atomic). -/
def SlotsAmongOthers (n : Nat) (es : List Event) : Prop :=
  es.filter (fun e => !otherAgent e) = List.replicate n (eventOf .genslot)

/-- The event writes no active flag with a value other than the one `A` has for it. -/
def KeepsFlags (A : BitVec 12) (e : Event) : Prop :=
  ∀ w note v, e = .hostCmd w → decodeHost w = .op (.setact note v) →
    ∀ j : Voice, j.val = note.toNat → isActive A j = v

/-- The voices of an active set. -/
def activeSet (A : BitVec 12) : Finset Voice := Finset.univ.filter fun j => A.getLsbD j.val = true

/-- The value of a finite binary32 pattern. -/
def f32Value (b : F32) : ℚ := (f32Units b : ℚ) / (2 : ℚ) ^ 149

/-- The deadline premise of a claim about a run: no miss was observed (R180, R156). -/
def State.deadlineMet (s : State) : Prop := s.deadlineMiss = false

/-- The design requirement under which an implementation meets the deadline, with `fClk` the
frequency of `clk` and `wait` the longest wait in cycles for the `ARBSTART`
(70_reset_and_hazards.md R181). -/
def ImplementationMeetsDeadline (c : Config) (fClk wait : Nat) : Prop :=
  c.sampleRate * (Config.arbCycles + c.halfSize * Config.genSlotCycles + wait) <
    c.halfSize * fClk

end Sys2Proof.Machine
end

