-- ==== Sys2Proof/Certificates/Slice0/Obligations.lean ====
section
/-!
DEFINITION. The statements for the provers, from the numbered rules of spec/.
-/
open Sys2Proof Sys2Proof.Machine

/-! ## Encoding -/

/-- R75 (30_encoding.md), `decode_host`, with the fields as numbers; an ignored word changes no
state and raises nothing. -/
def Obligations.HostPortDecodesByFields : Prop :=
  ∀ w : Word,
    (w.toNat / 4096 = 0 →
      ∃ low : BitVec 12, decodeHost w = .op (.nop low) ∧ low.toNat = w.toNat % 4096) ∧
    (w.toNat / 4096 = 1 ∧ w.toNat / 2 % 128 = 0 ∧ w.toNat / 256 % 16 ≤ 11 →
      ∃ (note : BitVec 4) (v : Bool), decodeHost w = .op (.setact note v) ∧
        note.toNat = w.toNat / 256 % 16 ∧ (v = true ↔ w.toNat % 2 = 1)) ∧
    (¬ w.toNat / 4096 = 0 →
      ¬ (w.toNat / 4096 = 1 ∧ w.toNat / 2 % 128 = 0 ∧ w.toNat / 256 % 16 ≤ 11) →
      decodeHost w = .ignored w ∧ ∀ s : State, s.takeHostCmd w = .next s)

/-- R71 and R155: exactly three event words name a step. That a word with bit 15 clear is refused
as an event as well is the model's (log entry 11). -/
def Obligations.EventWordsNameThreeSteps : Prop :=
  ∀ w : Word,
    decodeEvent w =
      if w.toNat = 0x8000 then .ok .tick
      else if w.toNat = 0x9000 then .ok .arbstart
      else if w.toNat = 0xA000 then .ok .genslot
      else .error (.badEventWord w)

/-- R73: match, mask and constraint of each operation, and the reserved `OP` values. -/
def Obligations.MatchAndMaskOfEachOperation : Prop :=
  ∀ w : Word,
    ((∃ low, decodeWord w = some (.nop low)) ↔ w &&& 0xF000#16 = 0x0000#16) ∧
    ((∃ note v, decodeWord w = some (.setact note v)) ↔
      w &&& 0xF0FE#16 = 0x1000#16 ∧ w.toNat / 256 % 16 ≤ 11) ∧
    (decodeWord w = some .tick ↔ w &&& 0xFFFF#16 = 0x8000#16) ∧
    (decodeWord w = some .arbstart ↔ w &&& 0xFFFF#16 = 0x9000#16) ∧
    (decodeWord w = some .genslot ↔ w &&& 0xFFFF#16 = 0xA000#16) ∧
    (2 ≤ w.toNat / 4096 ∧ w.toNat / 4096 ≤ 7 ∨ 11 ≤ w.toNat / 4096 → decodeWord w = none)

/-- Decode of encode is the identity on well-formed operations, each on the port of its
format (R70, R71, R75). -/
def Obligations.DecodeOfEncodeIsIdentity : Prop :=
  ∀ i : Instr, i.wellFormed = true →
    (i.isHost = true → decodeHost (encode i) = .op i) ∧
    (i.isHost = false → decodeEvent (encode i) = .ok i)

/-- Every word that decodes to an operation is the word of that operation, and the operation
is well formed (R70, R72, R77). -/
def Obligations.EncodeOfDecodeIsIdentity : Prop :=
  ∀ (w : Word) (i : Instr), decodeWord w = some i → i.wellFormed = true ∧ encode i = w

/-- R79: the spec's table of encodings: the word of each line, and what it decodes to. -/
def Obligations.EncodingExamples : Prop :=
  encode (.nop 0x000#12) = 0x0000#16 ∧ encode (.setact 9#4 true) = 0x1901#16 ∧
  encode (.setact 9#4 false) = 0x1900#16 ∧ encode (.setact 0#4 true) = 0x1001#16 ∧
  encode (.setact 11#4 true) = 0x1B01#16 ∧ encode .tick = 0x8000#16 ∧
  encode .arbstart = 0x9000#16 ∧ encode .genslot = 0xA000#16 ∧
  decodeHost 0x0000#16 = .op (.nop 0x000#12) ∧
  decodeHost 0x0ABC#16 = .op (.nop 0xABC#12) ∧
  decodeHost 0x1901#16 = .op (.setact 9#4 true) ∧
  decodeHost 0x1900#16 = .op (.setact 9#4 false) ∧
  decodeHost 0x1001#16 = .op (.setact 0#4 true) ∧
  decodeHost 0x1B01#16 = .op (.setact 11#4 true) ∧
  decodeHost 0x1C01#16 = .ignored 0x1C01#16 ∧
  decodeHost 0x1F00#16 = .ignored 0x1F00#16 ∧
  decodeHost 0x1903#16 = .ignored 0x1903#16 ∧
  decodeHost 0x2901#16 = .ignored 0x2901#16 ∧
  decodeHost 0x8000#16 = .ignored 0x8000#16 ∧ decodeEvent 0x8000#16 = .ok .tick ∧
  decodeHost 0x9000#16 = .ignored 0x9000#16 ∧ decodeEvent 0x9000#16 = .ok .arbstart ∧
  decodeHost 0xA000#16 = .ignored 0xA000#16 ∧ decodeEvent 0xA000#16 = .ok .genslot

/-- R77: the word of `SETACT n, v`, and the operands the assembler refuses. -/
def Obligations.AssemblerWordsAndRefusals : Prop :=
  ∀ n v : Nat,
    (n ≤ 11 ∧ v ≤ 1 →
      assembleLine (.setact n v) =
        .ok [.hostCmd (0x1000#16 ||| (BitVec.ofNat 16 n <<< 8) ||| BitVec.ofNat 16 v)]) ∧
    (¬ (n ≤ 11 ∧ v ≤ 1) → assembleLine (.setact n v) = .error (.operandOutOfRange n v))

/-- R78: the pseudo-instructions and their expansions. -/
def Obligations.PseudoInstructionsExpand : Prop :=
  (∀ n, assembleLine (.noteOn n) = assembleLine (.setact n 1)) ∧
  (∀ n, assembleLine (.noteOff n) = assembleLine (.setact n 0)) ∧
  assembleLine .allOff =
    assemble [.setact 0 0, .setact 1 0, .setact 2 0, .setact 3 0, .setact 4 0, .setact 5 0,
      .setact 6 0, .setact 7 0, .setact 8 0, .setact 9 0, .setact 10 0, .setact 11 0] ∧
  (∀ k, assembleLine (.ticks k) = assemble (List.replicate k .tick)) ∧
  (∀ k, assembleLine (.genslots k) = assemble (List.replicate k .genslot)) ∧
  assembleLine .refill = assemble (.arbstart :: List.replicate 128 .genslot)

/-! ## The step -/

/-- The next placed word that decodes to an operation is run as that operation, on the
port its event names, and so is a word placed by `withFetchWord`. The block fetches nothing: the queue
of placed events is the model's choice (log entry 1), and so is the port on which `withFetchWord`
places a word and that it lowers `rst` (log entry 13), and that the bits of the number above the 16th
are dropped (log entry 21). -/
def Obligations.StepRunsTheDecodedOperation : Prop :=
  (∀ (s : State) (w : Word) (rest : List Event) (i : Instr),
    configLegal s.cfg = true → s.rst = false →
    (s.queue = .hostCmd w :: rest → decodeHost w = .op i → step s = exec i { s with queue := rest }) ∧
    (s.queue = .agentStep w :: rest → decodeEvent w = .ok i →
      step s = exec i { s with queue := rest })) ∧
  (∀ (s : State) (w : Nat) (i : Instr),
    configLegal s.cfg = true → decodeTableWord 16 w = some i →
    step (s.withFetchWord 16 w) = exec i { s with rst := false })

/-- R76: an ignored host word is no NOP in the syntax and has NOP's effect. -/
def Obligations.IgnoredHostWordsActAsNop : Prop :=
  ∀ (s : State) (w : Word) (rest : List Event),
    configLegal s.cfg = true → s.queue = .hostCmd w :: rest →
    (2 ≤ w.toNat / 4096 ∨
      w.toNat / 4096 = 1 ∧ (w.toNat / 2 % 128 ≠ 0 ∨ 12 ≤ w.toNat / 256 % 16)) →
    decodeHost w = .ignored w ∧ (∀ low, decodeHost w ≠ .op (.nop low)) ∧
    step s = .next { s with queue := rest } ∧
    (∀ low, step s = exec (.nop low) { s with queue := rest })

/-- R155: an event word that names no step is refused by name; a host word never is. -/
def Obligations.BadEventWordsRefusedHostWordsNever : Prop :=
  ∀ (s : State) (w : Word) (rest : List Event), configLegal s.cfg = true →
    (s.queue = .agentStep w :: rest →
      8 ≤ w.toNat / 4096 → (w.toNat % 4096 ≠ 0 ∨ 11 ≤ w.toNat / 4096) →
      step s = .refused (.badEventWord w)) ∧
    (s.queue = .hostCmd w :: rest → ∃ t, step s = .next t)

/-- R28: what a phase step must be. Below the pattern of `256.0` lie exactly the patterns of the
finite values from `+0.0` up to it. -/
def Obligations.LegalPhaseSteps : Prop :=
  ∀ (c : Config) (j : Voice),
    (stepLegal c j = true ↔
      f32Finite c.phaseStep[j] = true ∧ f32Negative c.phaseStep[j] = false ∧
        0 ≤ f32Value c.phaseStep[j] ∧ f32Value c.phaseStep[j] < 256) ∧
    (stepLegal c j = true ↔ c.phaseStep[j].toNat < 0x43800000)

/-- R152: a configuration with an illegal step has no initial state and no steps; a legal one
has an initial state. Naming the lowest such voice is the model's choice (log entry 6). -/
def Obligations.IllFormedConfigurationIsRefused : Prop :=
  ∀ s : State,
    (∀ j : Voice, ¬ s.cfg.phaseStep[j].toNat < 0x43800000 →
      (∀ k : Voice, k < j → s.cfg.phaseStep[k].toNat < 0x43800000) →
      State.start s.cfg = .refused (.configRefused j) ∧ step s = .refused (.configRefused j)) ∧
    ((∀ j : Voice, s.cfg.phaseStep[j].toNat < 0x43800000) →
      State.start s.cfg = .next (State.initial s.cfg 0))

/-- R170: while `rst` is high ticks and host words are ignored and no internal step is taken;
when it falls the block is in the reset state. The fault named for an internal step is the
model's (log entry 9), and so are the premise that a held block is in the reset state (log entry 9) and
that the release keeps `queue` and `turn` (log entry 19). -/
def Obligations.HeldResetIgnoresInputs : Prop :=
  ∀ (s : State) (rest : List Event), configLegal s.cfg = true → s.rst = true →
    (∀ w, s.queue = .hostCmd w :: rest → step s = .next { s with queue := rest }) ∧
    (s.queue = .agentStep 0x8000#16 :: rest → step s = .next { s with queue := rest }) ∧
    (s.queue = .agentStep 0x9000#16 :: rest → step s = .fault (.notEnabled .arbstart)) ∧
    (s.queue = .agentStep 0xA000#16 :: rest → step s = .fault (.notEnabled .genslot)) ∧
    (s.heldInReset → s.queue = .clkEdge false :: rest →
      step s = .next { State.initial s.cfg s.resets with queue := rest, turn := s.turn })

/-- R171 and R173: what a clock edge with `rst` high leaves. That each such edge leaves it, and that
`rst` then reads high, is the model's (log entry 9), and so are the draws, those of the next reset
number (log entries 3, 4 and 5). -/
def Obligations.ResetEdgeLeavesTheResetState : Prop :=
  ∀ (s : State) (rest : List Event), configLegal s.cfg = true → s.queue = .clkEdge true :: rest →
    ∃ t, step s = .next t ∧
      (∀ j : Voice, t.phase[j] = 0x00000000#32 ∧ isActive t.act j = false) ∧
      t.cursor.toNat = 0 ∧ (∀ h, t.pending h = false) ∧ t.genBusy = false ∧
      t.genHalf = .half0 ∧ t.genIdx.toNat = 0 ∧ t.out = [] ∧ t.deadlineMiss = false ∧
      (∀ a : Slot, t.bufRead a = Config.bufferInit (s.resets + 1) a.toNat) ∧
      t.sampleOut = Config.sampleOutInit (s.resets + 1) ∧ t.cfg = s.cfg ∧ t.rst = true

/-- R41: the values after reset, with the default steps of R27; the buffer and `sample_out`, which the
spec leaves unspecified, hold the free draws of log entries 3 and 4. -/
def Obligations.ValuesAfterReset : Prop :=
  (∀ j : Voice, State.reset.phase[j] = 0x00000000#32 ∧ isActive State.reset.act j = false) ∧
  (∀ a : Slot, State.reset.bufRead a = Config.bufferInit 0 a.toNat) ∧
  State.reset.cursor.toNat = 0 ∧ (∀ h, State.reset.pending h = false) ∧
  State.reset.genBusy = false ∧ State.reset.genHalf = .half0 ∧ State.reset.genIdx.toNat = 0 ∧
  State.reset.out = [] ∧ State.reset.deadlineMiss = false ∧
  State.reset.sampleOut = Config.sampleOutInit 0 ∧
  State.reset.cfg.phaseStep =
    #v[0x3FB29A62#32, 0x3FBD392D#32, 0x3FC879A3#32, 0x3FD46562#32, 0x3FE10697#32, 0x3FEE680F#32,
       0x3FFC9536#32, 0x4005CD15#32, 0x400DC1E1#32, 0x40162FC9#32, 0x401F1E03#32, 0x4028942E#32]

/-- R37: the strobe is high after a TICK until the next clock edge; no other operation
changes it. -/
def Obligations.StrobeMarksTheCycleAfterATick : Prop :=
  (∀ s t, exec .tick s = .next t → t.sampleStrobe = true) ∧
  (∀ i s t, i ≠ .tick → exec i s = .next t → t.sampleStrobe = s.sampleStrobe) ∧
  (∀ s rest b, configLegal s.cfg = true → s.queue = .clkEdge b :: rest →
    ∃ t, step s = .next t ∧ t.sampleStrobe = false)

/-- A clock edge that samples `rst` low ends the strobe and changes nothing else: in a running block
the phases, the flags, the buffer, the cursor, the arbiter's state, `sample_out` and the observations
stay. R37 and R170; that the edge is an event of its own is the model's (log entries 9 and 10). -/
def Obligations.ClockEdgeOnlyEndsTheStrobe : Prop :=
  ∀ (s : State) (rest : List Event),
    configLegal s.cfg = true → s.queue = .clkEdge false :: rest →
    ∃ t, step s = .next t ∧ t.sampleStrobe = false ∧ t.rst = false ∧
      t = { s with sampleStrobe := t.sampleStrobe, rst := t.rst, queue := rest }

/-! ## NOP and SETACT -/

/-- R101: whatever bits 11:0 hold, NOP leaves the state unchanged. -/
def Obligations.NopChangesNothing : Prop :=
  ∀ (s : State) (w : Word), w.toNat / 4096 = 0 →
    ∃ low, decodeHost w = .op (.nop low) ∧ exec (.nop low) s = .next s

/-- R102: SETACT writes `active[n]` and nothing else. -/
def Obligations.SetactWritesOneFlag : Prop :=
  ∀ (s : State) (note : BitVec 4) (v : Bool), note.toNat ≤ 11 →
    ∃ t, exec (.setact note v) s = .next t ∧
      (∀ j : Voice, isActive t.act j = if j.val = note.toNat then v else isActive s.act j) ∧
      t = { s with act := t.act }

/-- A note field that names no voice changes nothing (R75; for the term, log entry 12). -/
def Obligations.SetactOfNoVoiceChangesNothing : Prop :=
  ∀ (s : State) (note : BitVec 4) (v : Bool), 12 ≤ note.toNat → exec (.setact note v) s = .next s

/-- R106: writing the value already held is indistinguishable from NOP. -/
def Obligations.SetactOfHeldValueIsNop : Prop :=
  ∀ (s : State) (j : Voice) (low : BitVec 12),
    exec (.setact (BitVec.ofNat 4 j.val) (isActive s.act j)) s = exec (.nop low) s

/-- R107: of two SETACT steps to one voice the later value stays; steps to different voices
commute. -/
def Obligations.SetactStepsOverwriteOrCommute : Prop :=
  ∀ (s : State) (n m : BitVec 4) (v w : Bool), n.toNat ≤ 11 → m.toNat ≤ 11 →
    ∃ t u tu ut, exec (.setact n v) s = .next t ∧ exec (.setact m w) s = .next u ∧
      exec (.setact m w) t = .next tu ∧ exec (.setact n v) u = .next ut ∧
      (n = m → tu = u) ∧ (n ≠ m → tu = ut)

/-! ## TICK and ARBSTART -/

/-- R130: the whole effect of TICK, and its frame; what it does to the strobe port is
`StrobeMarksTheCycleAfterATick`. -/
def Obligations.TickDrainsOneSlot : Prop :=
  ∀ s : State, ∃ t, exec .tick s = .next t ∧
    t.sampleOut = s.bufRead s.cursor ∧ t.out = s.out ++ [s.bufRead s.cursor] ∧
    t.cursor.toNat = (s.cursor.toNat + 1) % 256 ∧
    t.pending0 = (s.pending0 || decide (t.cursor.toNat = 128)) ∧
    t.pending1 = (s.pending1 || decide (t.cursor.toNat = 0)) ∧
    t.deadlineMiss =
      (s.deadlineMiss ||
        (decide (t.cursor.toNat = 128) && (s.pending1 || s.genBusy && decide (s.genHalf = .half1))) ||
        (decide (t.cursor.toNat = 0) && (s.pending0 || s.genBusy && decide (s.genHalf = .half0)))) ∧
    t = { s with
      sampleOut := t.sampleOut, sampleStrobe := t.sampleStrobe, out := t.out, cursor := t.cursor,
      pending0 := t.pending0, pending1 := t.pending1, deadlineMiss := t.deadlineMiss }

/-- R131 and R137: the whole effect of ARBSTART where it is enabled, and its frame. -/
def Obligations.ArbstartStartsARefill : Prop :=
  ∀ s : State, s.genBusy = false → (s.pending0 = true ∨ s.pending1 = true) →
    ∃ t, exec .arbstart s = .next t ∧
      (s.pending0 = true → s.pending1 = true → halfNumber t.genHalf = 1 - s.cursor.toNat / 128) ∧
      (s.pending0 = true → s.pending1 = false → t.genHalf = .half0) ∧
      (s.pending0 = false → t.genHalf = .half1) ∧
      t.pending0 = (s.pending0 && decide (t.genHalf ≠ .half0)) ∧
      t.pending1 = (s.pending1 && decide (t.genHalf ≠ .half1)) ∧
      t.genIdx.toNat = 0 ∧ t.genBusy = true ∧
      t = { s with
        pending0 := t.pending0, pending1 := t.pending1, genHalf := t.genHalf,
        genIdx := t.genIdx, genBusy := t.genBusy }

/-- R154: a step that is not enabled is rejected by name. -/
def Obligations.StepsNotEnabledAreRejected : Prop :=
  ∀ s : State,
    (s.genBusy = false → exec .genslot s = .fault (.notEnabled .genslot)) ∧
    (s.genBusy = true ∨ s.pending0 = false ∧ s.pending1 = false →
      exec .arbstart s = .fault (.notEnabled .arbstart))

/-! ## GENSLOT -/

/-- R111, R112, R113, R117, R120: the sample GENSLOT writes, with one snapshot of the flags. -/
def Obligations.GenslotWritesTheMixedSample : Prop :=
  ∀ s : State, s.genBusy = true → configLegal s.cfg = true →
    (∀ j ∈ activeSet s.act, inCycle s.phase[j] = true) →
    ∃ t, exec .genslot s = .next t ∧
      (t.bufRead (slotAt s.cfg s.genHalf s.genIdx)).toNat =
        if (activeSet s.act).card = 0 then 2047
        else if (activeSet s.act).card = 1 then
          ∑ j ∈ activeSet s.act, ((tableRead (f32Floor s.phase[j])).getD 0).toNat
        else
          (∑ j ∈ activeSet s.act, ((tableRead (f32Floor s.phase[j])).getD 0).toNat) /
            (activeSet s.act).card

/-- R115, R116, R105: GENSLOT advances the active voices, wrapping once, and holds the others. -/
def Obligations.GenslotAdvancesActivePhases : Prop :=
  ∀ s : State, s.genBusy = true → configLegal s.cfg = true →
    (∀ j ∈ activeSet s.act, inCycle s.phase[j] = true) →
    ∃ t, exec .genslot s = .next t ∧
      ∀ j : Voice,
        (j ∈ activeSet s.act →
          (f32Value (f32Add s.phase[j] s.cfg.phaseStep[j]) < 256 →
            t.phase[j] = f32Add s.phase[j] s.cfg.phaseStep[j]) ∧
          (256 ≤ f32Value (f32Add s.phase[j] s.cfg.phaseStep[j]) →
            t.phase[j] = f32Sub (f32Add s.phase[j] s.cfg.phaseStep[j]) 0x43800000#32)) ∧
        (j ∉ activeSet s.act → t.phase[j] = s.phase[j])

/-- R110, R121: the slot written, the next position, and GENSLOT's frame: every other slot and
every other field is unchanged. -/
def Obligations.GenslotPositionAndFrame : Prop :=
  ∀ s : State, s.genBusy = true → configLegal s.cfg = true →
    (∀ j ∈ activeSet s.act, inCycle s.phase[j] = true) →
    ∃ t, exec .genslot s = .next t ∧
      (slotAt s.cfg s.genHalf s.genIdx).toNat = halfNumber s.genHalf * 128 + s.genIdx.toNat ∧
      (∀ a : Slot, a ≠ slotAt s.cfg s.genHalf s.genIdx → t.bufRead a = s.bufRead a) ∧
      (s.genIdx.toNat = 127 → t.genIdx.toNat = 0 ∧ t.genBusy = false) ∧
      (s.genIdx.toNat ≠ 127 → t.genIdx.toNat = s.genIdx.toNat + 1 ∧ t.genBusy = true) ∧
      t = { s with buf := t.buf, phase := t.phase, genIdx := t.genIdx, genBusy := t.genBusy }

/-- R119: whatever GENSLOT writes is in `[0, 4094]`. -/
def Obligations.GenslotNeverWritesAbove4094 : Prop :=
  ∀ s t : State, exec .genslot s = .next t →
    (t.bufRead (slotAt s.cfg s.genHalf s.genIdx)).toNat ≤ 4094

/-- The model's own stop (log entry 7): GENSLOT stops on an active voice that has no table
word. The statement `GoodIsKeptByEveryStep` shows that no run reaches it. -/
def Obligations.GenslotStopsWithoutATableWord : Prop :=
  ∀ s : State, s.genBusy = true → configLegal s.cfg = true →
    ∀ j ∈ activeSet s.act, ¬ s.phase[j].toNat < 0x43800000 →
      (∀ k ∈ activeSet s.act, k < j → s.phase[k].toNat < 0x43800000) →
      exec .genslot s = .fault (.phaseOutOfCycle j)

/-! ## Phase arithmetic -/

/-- R12, `+32`: the sum of two finite values, where it does not overflow, is a finite value
nearest to the exact sum, the one with an even significand of two equally near. -/
def Obligations.AdditionRoundsToNearestEven : Prop :=
  ∀ a b : F32, f32Finite a = true → f32Finite b = true →
    |f32Value a + f32Value b| ≤ f32Value 0x7F7FFFFF#32 →
    f32Finite (f32Add a b) = true ∧
    ∀ d : F32, f32Finite d = true →
      |f32Value (f32Add a b) - (f32Value a + f32Value b)| ≤
        |f32Value d - (f32Value a + f32Value b)| ∧
      (|f32Value (f32Add a b) - (f32Value a + f32Value b)| =
          |f32Value d - (f32Value a + f32Value b)| →
        f32Value d ≠ f32Value (f32Add a b) → (f32Add a b).toNat % 2 = 0)

/-- R12, `floor`: the integer part of a phase, a table address (R54). -/
def Obligations.FloorOfAPhaseIsATableAddress : Prop :=
  ∀ p : F32, inCycle p = true →
    (f32Floor p : ℚ) ≤ f32Value p ∧ f32Value p < (f32Floor p : ℚ) + 1 ∧ f32Floor p ≤ 255 ∧
    (tableRead (f32Floor p)).isSome = true

/-- R116: the wrap subtraction is exact. -/
def Obligations.WrapSubtractionIsExact : Prop :=
  ∀ p : F32, f32Finite p = true → 256 ≤ f32Value p → f32Value p < 512 →
    f32Value (f32Sub p 0x43800000#32) = f32Value p - 256

/-- R118: an advance keeps a phase in `[+0.0, 256)`, and the sum before the wrap is below 512. -/
def Obligations.AdvanceKeepsAPhaseInCycle : Prop :=
  ∀ (c : Config) (p d : F32), inCycle p = true → inCycle d = true →
    f32Value (f32Add p d) < 512 ∧ inCycle (advancePhase c p d) = true

/-- The arithmetic of R125, from R115 and R116: with an integer step `d` that divides 256, from `+0.0`,
the phase after `n` advances is `n * d mod 256`, its integer part too, each sum is the exact integer,
and the phase is `+0.0` again after exactly `256 / d` advances. -/
def Obligations.IntegerStepReturnsToZero : Prop :=
  ∀ (c : Config) (step : F32) (d : Nat), inCycle step = true → d ∣ 256 → f32Value step = (d : ℚ) →
    (∀ n : Nat, ∃ p : F32, p = (fun p => advancePhase c p step)^[n] 0x00000000#32 ∧
      f32Value p = ((n * d % 256 : Nat) : ℚ) ∧ f32Floor p = n * d % 256 ∧
      f32Value (f32Add p step) = f32Value p + (d : ℚ)) ∧
    (fun p => advancePhase c p step)^[256 / d] 0x00000000#32 = 0x00000000#32 ∧
    (∀ n : Nat, 0 < n → n < 256 / d →
      (fun p => advancePhase c p step)^[n] 0x00000000#32 ≠ 0x00000000#32)

/-- R26 and R27: each default step is the binary32 value nearest to
`REF_FREQ * 2^((j - REF_INDEX)/12) * TABLE_SIZE / SAMPLE_RATE`, with the parameters of R7. -/
def Obligations.DefaultStepsAreNearest : Prop :=
  ∀ (j : Voice) (d : F32) (quotient : ℝ), f32Finite d = true →
    quotient = (defaultConfig.refFreq : ℝ) *
        (2 : ℝ) ^ (((j.val : ℝ) - (defaultConfig.refIndex : ℝ)) / 12) *
        (defaultConfig.tableSize : ℝ) / (defaultConfig.sampleRate : ℝ) →
    |(f32Value defaultConfig.phaseStep[j] : ℝ) - quotient| ≤ |(f32Value d : ℝ) - quotient|

/-! ## The table -/

/-- R51: every table word is `2047 * (sin(2 pi i / 256) + 1)` rounded to the nearest integer. -/
def Obligations.TableIsTheRoundedSine : Prop :=
  ∀ i : Nat, i < 256 → ∃ v : Sample, tableRead i = some v ∧
    |(v.toNat : ℝ) - 2047 * (Real.sin (2 * Real.pi * i / 256) + 1)| < 1 / 2

/-- R53: the properties of the table. -/
def Obligations.TableProperties : Prop :=
  tableRead 0 = some 2047#12 ∧ tableRead 128 = some 2047#12 ∧
  ∀ i : Nat, i < 256 → ∃ v u : Sample,
    tableRead i = some v ∧ tableRead ((i + 128) % 256) = some u ∧
    v.toNat + u.toNat = 4094 ∧ v.toNat ≤ 4094 ∧
    (v.toNat = 4094 ↔ i = 64) ∧ (v.toNat = 0 ↔ i = 192) ∧
    tableRead ((320 - i) % 256) = tableRead ((64 + i) % 256)

/-! ## Invariants and whole-machine rules -/

/-- R118, R119 and the canonical form of the buffer: every step keeps a good state good. -/
def Obligations.GoodIsKeptByEveryStep : Prop :=
  ∀ s t : State, s.Good → step s = .next t → t.Good

/-- The reset state is good, and meets the other invariants. -/
def Obligations.InvariantsHoldAtReset : Prop :=
  State.reset.Good ∧ State.reset.quietHalf ∧ State.reset.FirstRevolution ∧
  State.reset.heldInReset

/-- R150 and R154: in a good state nothing faults but a placed step that is not enabled. -/
def Obligations.GoodStatesFaultOnlyWhenNotEnabled : Prop :=
  ∀ (s : State) (f : Fault), s.Good → step s = .fault f →
    (f = .notEnabled .arbstart ∧ s.queue.head? = some (.agentStep 0x9000#16) ∧
      (s.rst = true ∨ s.arbEnabled = false)) ∨
    (f = .notEnabled .genslot ∧ s.queue.head? = some (.agentStep 0xA000#16) ∧
      (s.rst = true ∨ s.genEnabled = false))

/-- No good state is stuck: with nothing placed the block always has a next state, whatever the
free order of events is (R154, R174; the free order is log entry 2). And with nothing placed the run of
`step` is an execution, in which the arbiter and the generator are weakly fair (R139; how long each
wait is stays free, log entry 22). -/
def Obligations.FreeRunNeverStops : Prop :=
  ∀ s : State, s.Good → s.queue = [] →
    (∃ t, step s = .next t) ∧
    (s.heldInReset →
      (∀ n, step (s.run n) = .next (s.run (n + 1))) ∧
      Execution (fun n => (s.run n).nextEvent) fun n => (s.run n).withoutSchedule)

/-- R157: with no miss observed, no refill of the half the cursor is in is pending or in
progress; every step keeps this. -/
def Obligations.QuietHalfIsKeptByEveryStep : Prop :=
  ∀ s t : State, s.quietHalf → step s = .next t → t.quietHalf

/-- R62 and R142: with no miss observed, GENSLOT writes no slot of the half the cursor is in; of a
state without that history the invariant of R157 is the premise. -/
def Obligations.HalfBeingReadIsNotWritten : Prop :=
  ∀ s t : State, s.quietHalf → s.deadlineMiss = false → exec .genslot s = .next t →
    halfOf s.cfg (slotAt s.cfg s.genHalf s.genIdx) = otherHalf (halfOf s.cfg s.cursor) ∧
    ∀ a : Slot, halfOf s.cfg a = halfOf s.cfg s.cursor → t.bufRead a = s.bufRead a

/-- R141 and R134: every step keeps the account of the first 256 samples. The reset contents are the
free draws of log entry 3, numbered as log entry 5 says. -/
def Obligations.FirstRevolutionIsKeptByEveryStep : Prop :=
  ∀ s t : State, s.FirstRevolution → step s = .next t → t.FirstRevolution

/-- While `rst` is held the block stays in the reset state. R170 says that a held block takes no step and
is in the reset state in the cycle in which `rst` falls. That each edge sampling `rst` high leaves the
reset state, so that a held block is in it, is the model's inference (log entry 9), and so are the
number of the draws in it (log entry 5) and that `queue` and `turn` are kept (log entry 19). -/
def Obligations.HeldInResetIsKeptByEveryStep : Prop :=
  ∀ s t : State, s.heldInReset → step s = .next t → t.heldInReset

/-- R156: the miss is sticky; only a reset clears it. -/
def Obligations.DeadlineMissIsSticky : Prop :=
  ∀ s t : State, step s = .next t → s.deadlineMiss = true → s.nextEvent ≠ .clkEdge true →
    t.deadlineMiss = true

/-- R40: no operation reads the two observations; states that differ only there go on alike. -/
def Obligations.ObservationsAreReadByNoStep : Prop :=
  ∀ s u : State, s.withoutObservations = u.withoutObservations →
    (∀ t, step s = .next t →
      ∃ t', step u = .next t' ∧ t.withoutObservations = t'.withoutObservations) ∧
    (∀ f, step s = .fault f → step u = .fault f) ∧
    (∀ r, step s = .refused r → step u = .refused r)

/-- R41, the "written by" column, over all operations. -/
def Obligations.EachRegisterHasItsWriters : Prop :=
  ∀ (i : Instr) (s t : State), exec i s = .next t →
    (i ≠ .genslot → t.phase = s.phase ∧ t.buf = s.buf ∧ ∀ a : Slot, t.bufRead a = s.bufRead a) ∧
    ((∀ n v, i ≠ .setact n v) → t.act = s.act) ∧
    (i ≠ .tick → t.cursor = s.cursor ∧ t.sampleOut = s.sampleOut ∧ t.out = s.out ∧
      t.deadlineMiss = s.deadlineMiss) ∧
    (i ≠ .tick → i ≠ .arbstart → t.pending0 = s.pending0 ∧ t.pending1 = s.pending1) ∧
    (i ≠ .arbstart → t.genHalf = s.genHalf) ∧
    (i ≠ .arbstart → i ≠ .genslot → t.genBusy = s.genBusy ∧ t.genIdx = s.genIdx) ∧
    t.cfg = s.cfg ∧ t.rst = s.rst ∧ t.resets = s.resets ∧ t.queue = s.queue ∧ t.turn = s.turn ∧
    t.passed = s.passed

/-- R163 and R100: whatever word the host sends is accepted in its step, and changes nothing
but the active flags. -/
def Obligations.HostWordsTouchOnlyTheFlags : Prop :=
  ∀ (s : State) (w : Word) (rest : List Event),
    configLegal s.cfg = true → s.queue = .hostCmd w :: rest →
    ∃ t, step s = .next t ∧ t = { s with act := t.act, queue := rest }

/-- R121, the uninterrupted order: one ARBSTART and 128 GENSLOT steps write every slot of the served
half, no slot of the other, and end the refill. -/
def Obligations.RefillFillsItsHalf : Prop :=
  ∀ s : State, s.Good → s.rst = false → s.arbEnabled = true →
    ∃ t, s.takeAll refillEvents = .next t ∧ t.genBusy = false ∧ t.genIdx.toNat = 0 ∧
      t.genHalf = s.servedHalf ∧ t.cursor = s.cursor ∧ t.act = s.act ∧ t.out = s.out ∧
      t.pending s.servedHalf = false ∧
      t.pending (otherHalf s.servedHalf) = s.pending (otherHalf s.servedHalf) ∧
      (∀ a : Slot, halfOf s.cfg a = s.servedHalf →
        ∃ v, Memory.find t.buf a.toNat = some v ∧ v.toNat ≤ 4094) ∧
      (∀ a : Slot, halfOf s.cfg a ≠ s.servedHalf → t.bufRead a = s.bufRead a)

/-- R120 over an uninterrupted refill: with no voice active every slot of the half is 2047 and no phase
changes. -/
def Obligations.SilentRefillWritesMidScale : Prop :=
  ∀ s : State, configLegal s.cfg = true → s.rst = false → s.arbEnabled = true →
    activeSet s.act = ∅ →
    ∃ t, s.takeAll refillEvents = .next t ∧ t.phase = s.phase ∧
      ∀ a : Slot, halfOf s.cfg a = s.servedHalf → (t.bufRead a).toNat = 2047

/-- R124, the uninterrupted order: with one voice active, slot `n` of the refill is the table word at
its `n`-th phase, undivided. -/
def Obligations.OneVoiceRefillReproducesTheTable : Prop :=
  ∀ (s : State) (m : Voice), s.Good → s.rst = false → s.arbEnabled = true →
    activeSet s.act = {m} →
    ∃ t, s.takeAll refillEvents = .next t ∧
      t.phase[m] = (fun p => advancePhase s.cfg p s.cfg.phaseStep[m])^[128] s.phase[m] ∧
      ∀ n : BitVec 7,
        tableRead (f32Floor ((fun p => advancePhase s.cfg p s.cfg.phaseStep[m])^[n.toNat] s.phase[m])) =
          some (t.bufRead (slotAt s.cfg s.servedHalf n))

/-- R121: after one ARBSTART and `n` GENSLOT steps, whatever host words, ticks and clock edges fall among
them, the first `n` slots of the served half are written, in increasing order, and no other slot; the
128th step ends the refill. -/
def Obligations.RefillWritesItsSlotsInOrder : Prop :=
  ∀ (s : State) (n : Nat) (es : List Event), s.Good → s.rst = false → s.arbEnabled = true →
    n ≤ 128 → SlotsAmongOthers n es →
    ∃ t, s.takeAll (eventOf .arbstart :: es) = .next t ∧
      t.genHalf = s.servedHalf ∧ t.genIdx.toNat = n % 128 ∧ t.genBusy = decide (n < 128) ∧
      (∀ k : BitVec 7, k.toNat < n → ∃ v,
        Memory.find t.buf (slotAt s.cfg s.servedHalf k).toNat = some v ∧ v.toNat ≤ 4094) ∧
      (∀ a : Slot, (halfOf s.cfg a ≠ s.servedHalf ∨ n ≤ a.toNat % 128) → t.bufRead a = s.bufRead a)

/-- R120 over a refill, whatever host words that keep the flags, ticks and clock edges fall among its
steps: with no voice active each slot written is 2047, no phase changes, and the slot counter
advances. -/
def Obligations.SilentSlotsAreMidScaleAmongOtherSteps : Prop :=
  ∀ (s : State) (n : Nat) (es : List Event), s.Good → s.rst = false → s.arbEnabled = true →
    activeSet s.act = ∅ → n ≤ 128 → SlotsAmongOthers n es → (∀ e ∈ es, KeepsFlags s.act e) →
    ∃ t, s.takeAll (eventOf .arbstart :: es) = .next t ∧ t.phase = s.phase ∧
      t.genIdx.toNat = n % 128 ∧
      ∀ k : BitVec 7, k.toNat < n → (t.bufRead (slotAt s.cfg s.servedHalf k)).toNat = 2047

/-- R124, which the spec infers from R110 and R117: with exactly one voice active through a whole
refill, whatever host words that keep the flags, ticks and clock edges fall among its steps, slot `k`
of the half is the table word at the voice's `k`-th phase, and the phase advances once per slot. -/
def Obligations.OneVoiceReproducesTheTableAmongOtherSteps : Prop :=
  ∀ (s : State) (m : Voice) (es : List Event), s.Good → s.rst = false → s.arbEnabled = true →
    activeSet s.act = {m} → SlotsAmongOthers 128 es → (∀ e ∈ es, KeepsFlags s.act e) →
    ∃ t, s.takeAll (eventOf .arbstart :: es) = .next t ∧
      t.phase[m] = (fun p => advancePhase s.cfg p s.cfg.phaseStep[m])^[128] s.phase[m] ∧
      ∀ k : BitVec 7,
        tableRead
            (f32Floor ((fun p => advancePhase s.cfg p s.cfg.phaseStep[m])^[k.toNat] s.phase[m])) =
          some (t.bufRead (slotAt s.cfg s.servedHalf k))

/-- R125, which the spec infers from R115 and R116: voice `m` active alone, with an integer step `d`
that divides 256, from phase `+0.0`: after any events that keep the flags and do not reset, `n` GENSLOT
steps among them, its phase is `n * d mod 256`, the next sum is exact, the next GENSLOT writes
`TABLE[n * d mod 256]`, and the phase is `+0.0` again after exactly `256 / d` slots. -/
def Obligations.IntegerStepVoiceReadsEveryDthWord : Prop :=
  ∀ (s t : State) (m : Voice) (d : Nat) (es : List Event), s.Good → s.rst = false →
    activeSet s.act = {m} → d ∣ 256 → f32Value s.cfg.phaseStep[m] = (d : ℚ) →
    s.phase[m] = 0x00000000#32 →
    (∀ e ∈ es, KeepsFlags s.act e ∧ e ≠ .clkEdge true) → s.takeAll es = .next t →
    f32Value t.phase[m] = ((es.count (eventOf .genslot) * d % 256 : Nat) : ℚ) ∧
    f32Value (f32Add t.phase[m] t.cfg.phaseStep[m]) = f32Value t.phase[m] + (d : ℚ) ∧
    (t.genBusy = true → ∃ u, exec .genslot t = .next u ∧
      tableRead (es.count (eventOf .genslot) * d % 256) =
        some (u.bufRead (slotAt t.cfg t.genHalf t.genIdx))) ∧
    (es.count (eventOf .genslot) = 256 / d → t.phase[m] = 0x00000000#32) ∧
    (0 < es.count (eventOf .genslot) → es.count (eventOf .genslot) < 256 / d →
      t.phase[m] ≠ 0x00000000#32)

/-- R139 and R121: in an order of events in which the generator is fair, as it is in every execution,
every refill ends; and so it is in the run of `step` from a good state with nothing placed. -/
def Obligations.FairGeneratorEndsEveryRefill : Prop :=
  (∀ (e : Nat → Event) (r : Nat → State), EventOrder e r → GeneratorFair e r →
    ∀ n, ∃ m, n ≤ m ∧ (r m).genBusy = false) ∧
  ∀ s : State, s.Good → s.heldInReset → s.queue = [] →
    ∀ n, ∃ m, n ≤ m ∧ (s.run m).genBusy = false

/-- R139: in an order of events in which the arbiter is fair, as it is in every execution, a request
leads to a refill in progress, unless a reset comes first; and so it is in the run of `step` from a
good state with nothing placed. -/
def Obligations.FairArbiterAnswersARequest : Prop :=
  (∀ (e : Nat → Event) (r : Nat → State), EventOrder e r → ArbiterFair e r →
    ∀ n h, (r n).pending h = true →
      ∃ m, n ≤ m ∧ ((r m).genBusy = true ∨ e m = .clkEdge true)) ∧
  ∀ s : State, s.Good → s.heldInReset → s.queue = [] →
    ∀ n h, (s.run n).pending h = true →
      ∃ m, n ≤ m ∧ ((s.run m).genBusy = true ∨ (s.run m).nextEvent = .clkEdge true)
end

