-- ==== Sys2Proof/Laws/Config.lean ====
section
/-!
SUPPORT. The values of the configuration's parameters (00_scope.md R7, R8), what the operands that read
them come to, and the phase advance at that table size.
-/
namespace Sys2Proof

@[simp] theorem Config.noteCount_eq (c : Config) : c.noteCount = 12 := c.built.1
@[simp] theorem Config.tableSize_eq (c : Config) : c.tableSize = 256 := c.built.2.1
@[simp] theorem Config.sampleRate_eq (c : Config) : c.sampleRate = 48000 := c.built.2.2.1
@[simp] theorem Config.bufferSize_eq (c : Config) : c.bufferSize = 256 := c.built.2.2.2.1
@[simp] theorem Config.halfSize_eq (c : Config) : c.halfSize = 128 := c.built.2.2.2.2.1
@[simp] theorem Config.refFreq_eq (c : Config) : c.refFreq = 440 := c.built.2.2.2.2.2.1
@[simp] theorem Config.refIndex_eq (c : Config) : c.refIndex = 9 := c.built.2.2.2.2.2.2.1
@[simp] theorem Config.maxOut_eq (c : Config) : c.maxOut = 4095 := c.built.2.2.2.2.2.2.2
@[simp] theorem Config.amplitude_eq (c : Config) : c.amplitude = 4095 := c.maxOut_eq
@[simp] theorem Config.mid_eq (c : Config) : c.mid = 2047 := by simp [Config.mid]

namespace Machine

theorem f32OfNat_tableSize (c : Config) : f32OfNat c.tableSize = f32TableSize := by
  rw [Config.tableSize_eq]; decide +kernel

theorem advancePhase_eq (c : Config) (p d : F32) :
    advancePhase c p d =
      if atLeastTableSize (f32Add p d) then f32Sub (f32Add p d) f32TableSize else f32Add p d := by
  simp only [advancePhase, f32OfNat_tableSize]
  rfl

theorem noteVoice_lt {c : Config} {n : BitVec 4} (h : n.toNat < 12) :
    noteVoice c n = some ⟨n.toNat, h⟩ := by
  simp [noteVoice, h]

theorem noteVoice_ge {c : Config} {n : BitVec 4} (h : ¬ n.toNat < 12) : noteVoice c n = none := by
  simp [noteVoice, h]

theorem halfOf_eq (c : Config) (a : Slot) :
    halfOf c a = if a.toNat < 128 then .half0 else .half1 := by
  have h : a.toNat / c.halfSize = 0 ↔ a.toNat < 128 := by rw [Config.halfSize_eq]; omega
  by_cases ha : a.toNat < 128
  · rw [if_pos ha]; exact if_pos (h.2 ha)
  · rw [if_neg ha]; exact if_neg fun e => ha (h.1 e)

/-- Which half a slot lies in is the same under every configuration. -/
theorem halfOf_config (c d : Config) (a : Slot) : halfOf c a = halfOf d a := by
  rw [halfOf_eq, halfOf_eq]

theorem slotAt_toNat (c : Config) (h : Half) (idx : BitVec 7) :
    (slotAt c h idx).toNat = halfNumber h * 128 + idx.toNat := by
  have hi := idx.isLt
  cases h <;> simp [slotAt, halfNumber] <;> omega

theorem halfOf_slotAt (c : Config) (h : Half) (idx : BitVec 7) : halfOf c (slotAt c h idx) = h := by
  have hi := idx.isLt
  rw [halfOf_eq, slotAt_toNat]
  cases h
  · exact if_pos (by simp only [halfNumber]; omega)
  · exact if_neg (by simp only [halfNumber]; omega)

end Machine

end Sys2Proof
end

