-- ==== Sys2Proof/Laws/State.lean ====
section
/-!
SUPPORT. For each named update of the state: what every field of the result is.
-/
namespace Sys2Proof.Machine

/-! ### `State.bufWrite` -/

@[simp] theorem State.bufWrite_phase (s : State) (slot : Slot) (v : Sample) : (s.bufWrite slot v).phase = s.phase :=
  rfl
@[simp] theorem State.bufWrite_act (s : State) (slot : Slot) (v : Sample) : (s.bufWrite slot v).act = s.act :=
  rfl
@[simp] theorem State.bufWrite_cursor (s : State) (slot : Slot) (v : Sample) : (s.bufWrite slot v).cursor = s.cursor :=
  rfl
@[simp] theorem State.bufWrite_pending0 (s : State) (slot : Slot) (v : Sample) : (s.bufWrite slot v).pending0 = s.pending0 :=
  rfl
@[simp] theorem State.bufWrite_pending1 (s : State) (slot : Slot) (v : Sample) : (s.bufWrite slot v).pending1 = s.pending1 :=
  rfl
@[simp] theorem State.bufWrite_genBusy (s : State) (slot : Slot) (v : Sample) : (s.bufWrite slot v).genBusy = s.genBusy :=
  rfl
@[simp] theorem State.bufWrite_genHalf (s : State) (slot : Slot) (v : Sample) : (s.bufWrite slot v).genHalf = s.genHalf :=
  rfl
@[simp] theorem State.bufWrite_genIdx (s : State) (slot : Slot) (v : Sample) : (s.bufWrite slot v).genIdx = s.genIdx :=
  rfl
@[simp] theorem State.bufWrite_sampleOut (s : State) (slot : Slot) (v : Sample) : (s.bufWrite slot v).sampleOut = s.sampleOut :=
  rfl
@[simp] theorem State.bufWrite_sampleStrobe (s : State) (slot : Slot) (v : Sample) : (s.bufWrite slot v).sampleStrobe = s.sampleStrobe :=
  rfl
@[simp] theorem State.bufWrite_rst (s : State) (slot : Slot) (v : Sample) : (s.bufWrite slot v).rst = s.rst :=
  rfl
@[simp] theorem State.bufWrite_out (s : State) (slot : Slot) (v : Sample) : (s.bufWrite slot v).out = s.out :=
  rfl
@[simp] theorem State.bufWrite_deadlineMiss (s : State) (slot : Slot) (v : Sample) : (s.bufWrite slot v).deadlineMiss = s.deadlineMiss :=
  rfl
@[simp] theorem State.bufWrite_cfg (s : State) (slot : Slot) (v : Sample) : (s.bufWrite slot v).cfg = s.cfg :=
  rfl
@[simp] theorem State.bufWrite_resets (s : State) (slot : Slot) (v : Sample) : (s.bufWrite slot v).resets = s.resets :=
  rfl
@[simp] theorem State.bufWrite_queue (s : State) (slot : Slot) (v : Sample) : (s.bufWrite slot v).queue = s.queue :=
  rfl
@[simp] theorem State.bufWrite_turn (s : State) (slot : Slot) (v : Sample) : (s.bufWrite slot v).turn = s.turn :=
  rfl
@[simp] theorem State.bufWrite_passed (s : State) (slot : Slot) (v : Sample) : (s.bufWrite slot v).passed = s.passed :=
  rfl

/-! ### `State.setActive` -/

@[simp] theorem State.setActive_phase (s : State) (j : Voice) (v : Bool) : (s.setActive j v).phase = s.phase :=
  rfl
@[simp] theorem State.setActive_buf (s : State) (j : Voice) (v : Bool) : (s.setActive j v).buf = s.buf :=
  rfl
@[simp] theorem State.setActive_cursor (s : State) (j : Voice) (v : Bool) : (s.setActive j v).cursor = s.cursor :=
  rfl
@[simp] theorem State.setActive_pending0 (s : State) (j : Voice) (v : Bool) : (s.setActive j v).pending0 = s.pending0 :=
  rfl
@[simp] theorem State.setActive_pending1 (s : State) (j : Voice) (v : Bool) : (s.setActive j v).pending1 = s.pending1 :=
  rfl
@[simp] theorem State.setActive_genBusy (s : State) (j : Voice) (v : Bool) : (s.setActive j v).genBusy = s.genBusy :=
  rfl
@[simp] theorem State.setActive_genHalf (s : State) (j : Voice) (v : Bool) : (s.setActive j v).genHalf = s.genHalf :=
  rfl
@[simp] theorem State.setActive_genIdx (s : State) (j : Voice) (v : Bool) : (s.setActive j v).genIdx = s.genIdx :=
  rfl
@[simp] theorem State.setActive_sampleOut (s : State) (j : Voice) (v : Bool) : (s.setActive j v).sampleOut = s.sampleOut :=
  rfl
@[simp] theorem State.setActive_sampleStrobe (s : State) (j : Voice) (v : Bool) : (s.setActive j v).sampleStrobe = s.sampleStrobe :=
  rfl
@[simp] theorem State.setActive_rst (s : State) (j : Voice) (v : Bool) : (s.setActive j v).rst = s.rst :=
  rfl
@[simp] theorem State.setActive_out (s : State) (j : Voice) (v : Bool) : (s.setActive j v).out = s.out :=
  rfl
@[simp] theorem State.setActive_deadlineMiss (s : State) (j : Voice) (v : Bool) : (s.setActive j v).deadlineMiss = s.deadlineMiss :=
  rfl
@[simp] theorem State.setActive_cfg (s : State) (j : Voice) (v : Bool) : (s.setActive j v).cfg = s.cfg :=
  rfl
@[simp] theorem State.setActive_resets (s : State) (j : Voice) (v : Bool) : (s.setActive j v).resets = s.resets :=
  rfl
@[simp] theorem State.setActive_queue (s : State) (j : Voice) (v : Bool) : (s.setActive j v).queue = s.queue :=
  rfl
@[simp] theorem State.setActive_turn (s : State) (j : Voice) (v : Bool) : (s.setActive j v).turn = s.turn :=
  rfl
@[simp] theorem State.setActive_passed (s : State) (j : Voice) (v : Bool) : (s.setActive j v).passed = s.passed :=
  rfl

/-! ### `State.emit` -/

@[simp] theorem State.emit_phase (s : State) (v : Sample) : (s.emit v).phase = s.phase :=
  rfl
@[simp] theorem State.emit_act (s : State) (v : Sample) : (s.emit v).act = s.act :=
  rfl
@[simp] theorem State.emit_buf (s : State) (v : Sample) : (s.emit v).buf = s.buf :=
  rfl
@[simp] theorem State.emit_cursor (s : State) (v : Sample) : (s.emit v).cursor = s.cursor :=
  rfl
@[simp] theorem State.emit_pending0 (s : State) (v : Sample) : (s.emit v).pending0 = s.pending0 :=
  rfl
@[simp] theorem State.emit_pending1 (s : State) (v : Sample) : (s.emit v).pending1 = s.pending1 :=
  rfl
@[simp] theorem State.emit_genBusy (s : State) (v : Sample) : (s.emit v).genBusy = s.genBusy :=
  rfl
@[simp] theorem State.emit_genHalf (s : State) (v : Sample) : (s.emit v).genHalf = s.genHalf :=
  rfl
@[simp] theorem State.emit_genIdx (s : State) (v : Sample) : (s.emit v).genIdx = s.genIdx :=
  rfl
@[simp] theorem State.emit_rst (s : State) (v : Sample) : (s.emit v).rst = s.rst :=
  rfl
@[simp] theorem State.emit_deadlineMiss (s : State) (v : Sample) : (s.emit v).deadlineMiss = s.deadlineMiss :=
  rfl
@[simp] theorem State.emit_cfg (s : State) (v : Sample) : (s.emit v).cfg = s.cfg :=
  rfl
@[simp] theorem State.emit_resets (s : State) (v : Sample) : (s.emit v).resets = s.resets :=
  rfl
@[simp] theorem State.emit_queue (s : State) (v : Sample) : (s.emit v).queue = s.queue :=
  rfl
@[simp] theorem State.emit_turn (s : State) (v : Sample) : (s.emit v).turn = s.turn :=
  rfl
@[simp] theorem State.emit_passed (s : State) (v : Sample) : (s.emit v).passed = s.passed :=
  rfl

/-! ### `State.advanceCursor` -/

@[simp] theorem State.advanceCursor_phase (s : State) : (s.advanceCursor).phase = s.phase :=
  rfl
@[simp] theorem State.advanceCursor_act (s : State) : (s.advanceCursor).act = s.act :=
  rfl
@[simp] theorem State.advanceCursor_buf (s : State) : (s.advanceCursor).buf = s.buf :=
  rfl
@[simp] theorem State.advanceCursor_pending0 (s : State) : (s.advanceCursor).pending0 = s.pending0 :=
  rfl
@[simp] theorem State.advanceCursor_pending1 (s : State) : (s.advanceCursor).pending1 = s.pending1 :=
  rfl
@[simp] theorem State.advanceCursor_genBusy (s : State) : (s.advanceCursor).genBusy = s.genBusy :=
  rfl
@[simp] theorem State.advanceCursor_genHalf (s : State) : (s.advanceCursor).genHalf = s.genHalf :=
  rfl
@[simp] theorem State.advanceCursor_genIdx (s : State) : (s.advanceCursor).genIdx = s.genIdx :=
  rfl
@[simp] theorem State.advanceCursor_sampleOut (s : State) : (s.advanceCursor).sampleOut = s.sampleOut :=
  rfl
@[simp] theorem State.advanceCursor_sampleStrobe (s : State) : (s.advanceCursor).sampleStrobe = s.sampleStrobe :=
  rfl
@[simp] theorem State.advanceCursor_rst (s : State) : (s.advanceCursor).rst = s.rst :=
  rfl
@[simp] theorem State.advanceCursor_out (s : State) : (s.advanceCursor).out = s.out :=
  rfl
@[simp] theorem State.advanceCursor_deadlineMiss (s : State) : (s.advanceCursor).deadlineMiss = s.deadlineMiss :=
  rfl
@[simp] theorem State.advanceCursor_cfg (s : State) : (s.advanceCursor).cfg = s.cfg :=
  rfl
@[simp] theorem State.advanceCursor_resets (s : State) : (s.advanceCursor).resets = s.resets :=
  rfl
@[simp] theorem State.advanceCursor_queue (s : State) : (s.advanceCursor).queue = s.queue :=
  rfl
@[simp] theorem State.advanceCursor_turn (s : State) : (s.advanceCursor).turn = s.turn :=
  rfl
@[simp] theorem State.advanceCursor_passed (s : State) : (s.advanceCursor).passed = s.passed :=
  rfl

/-! ### `State.advanceVoices` -/

@[simp] theorem State.advanceVoices_act (s : State) (A : BitVec 12) : (s.advanceVoices A).act = s.act :=
  rfl
@[simp] theorem State.advanceVoices_buf (s : State) (A : BitVec 12) : (s.advanceVoices A).buf = s.buf :=
  rfl
@[simp] theorem State.advanceVoices_cursor (s : State) (A : BitVec 12) : (s.advanceVoices A).cursor = s.cursor :=
  rfl
@[simp] theorem State.advanceVoices_pending0 (s : State) (A : BitVec 12) : (s.advanceVoices A).pending0 = s.pending0 :=
  rfl
@[simp] theorem State.advanceVoices_pending1 (s : State) (A : BitVec 12) : (s.advanceVoices A).pending1 = s.pending1 :=
  rfl
@[simp] theorem State.advanceVoices_genBusy (s : State) (A : BitVec 12) : (s.advanceVoices A).genBusy = s.genBusy :=
  rfl
@[simp] theorem State.advanceVoices_genHalf (s : State) (A : BitVec 12) : (s.advanceVoices A).genHalf = s.genHalf :=
  rfl
@[simp] theorem State.advanceVoices_genIdx (s : State) (A : BitVec 12) : (s.advanceVoices A).genIdx = s.genIdx :=
  rfl
@[simp] theorem State.advanceVoices_sampleOut (s : State) (A : BitVec 12) : (s.advanceVoices A).sampleOut = s.sampleOut :=
  rfl
@[simp] theorem State.advanceVoices_sampleStrobe (s : State) (A : BitVec 12) : (s.advanceVoices A).sampleStrobe = s.sampleStrobe :=
  rfl
@[simp] theorem State.advanceVoices_rst (s : State) (A : BitVec 12) : (s.advanceVoices A).rst = s.rst :=
  rfl
@[simp] theorem State.advanceVoices_out (s : State) (A : BitVec 12) : (s.advanceVoices A).out = s.out :=
  rfl
@[simp] theorem State.advanceVoices_deadlineMiss (s : State) (A : BitVec 12) : (s.advanceVoices A).deadlineMiss = s.deadlineMiss :=
  rfl
@[simp] theorem State.advanceVoices_cfg (s : State) (A : BitVec 12) : (s.advanceVoices A).cfg = s.cfg :=
  rfl
@[simp] theorem State.advanceVoices_resets (s : State) (A : BitVec 12) : (s.advanceVoices A).resets = s.resets :=
  rfl
@[simp] theorem State.advanceVoices_queue (s : State) (A : BitVec 12) : (s.advanceVoices A).queue = s.queue :=
  rfl
@[simp] theorem State.advanceVoices_turn (s : State) (A : BitVec 12) : (s.advanceVoices A).turn = s.turn :=
  rfl
@[simp] theorem State.advanceVoices_passed (s : State) (A : BitVec 12) : (s.advanceVoices A).passed = s.passed :=
  rfl

/-! ### `State.setPending` -/

@[simp] theorem State.setPending_phase (s : State) (h : Half) (v : Bool) : (s.setPending h v).phase = s.phase :=
  by cases h <;> rfl
@[simp] theorem State.setPending_act (s : State) (h : Half) (v : Bool) : (s.setPending h v).act = s.act :=
  by cases h <;> rfl
@[simp] theorem State.setPending_buf (s : State) (h : Half) (v : Bool) : (s.setPending h v).buf = s.buf :=
  by cases h <;> rfl
@[simp] theorem State.setPending_cursor (s : State) (h : Half) (v : Bool) : (s.setPending h v).cursor = s.cursor :=
  by cases h <;> rfl
@[simp] theorem State.setPending_genBusy (s : State) (h : Half) (v : Bool) : (s.setPending h v).genBusy = s.genBusy :=
  by cases h <;> rfl
@[simp] theorem State.setPending_genHalf (s : State) (h : Half) (v : Bool) : (s.setPending h v).genHalf = s.genHalf :=
  by cases h <;> rfl
@[simp] theorem State.setPending_genIdx (s : State) (h : Half) (v : Bool) : (s.setPending h v).genIdx = s.genIdx :=
  by cases h <;> rfl
@[simp] theorem State.setPending_sampleOut (s : State) (h : Half) (v : Bool) : (s.setPending h v).sampleOut = s.sampleOut :=
  by cases h <;> rfl
@[simp] theorem State.setPending_sampleStrobe (s : State) (h : Half) (v : Bool) : (s.setPending h v).sampleStrobe = s.sampleStrobe :=
  by cases h <;> rfl
@[simp] theorem State.setPending_rst (s : State) (h : Half) (v : Bool) : (s.setPending h v).rst = s.rst :=
  by cases h <;> rfl
@[simp] theorem State.setPending_out (s : State) (h : Half) (v : Bool) : (s.setPending h v).out = s.out :=
  by cases h <;> rfl
@[simp] theorem State.setPending_deadlineMiss (s : State) (h : Half) (v : Bool) : (s.setPending h v).deadlineMiss = s.deadlineMiss :=
  by cases h <;> rfl
@[simp] theorem State.setPending_cfg (s : State) (h : Half) (v : Bool) : (s.setPending h v).cfg = s.cfg :=
  by cases h <;> rfl
@[simp] theorem State.setPending_resets (s : State) (h : Half) (v : Bool) : (s.setPending h v).resets = s.resets :=
  by cases h <;> rfl
@[simp] theorem State.setPending_queue (s : State) (h : Half) (v : Bool) : (s.setPending h v).queue = s.queue :=
  by cases h <;> rfl
@[simp] theorem State.setPending_turn (s : State) (h : Half) (v : Bool) : (s.setPending h v).turn = s.turn :=
  by cases h <;> rfl
@[simp] theorem State.setPending_passed (s : State) (h : Half) (v : Bool) : (s.setPending h v).passed = s.passed :=
  by cases h <;> rfl

/-! ### `State.notify` -/

@[simp] theorem State.notify_phase (s : State) (h : Half) : (s.notify h).phase = s.phase :=
  by cases h <;> rfl
@[simp] theorem State.notify_act (s : State) (h : Half) : (s.notify h).act = s.act :=
  by cases h <;> rfl
@[simp] theorem State.notify_buf (s : State) (h : Half) : (s.notify h).buf = s.buf :=
  by cases h <;> rfl
@[simp] theorem State.notify_cursor (s : State) (h : Half) : (s.notify h).cursor = s.cursor :=
  by cases h <;> rfl
@[simp] theorem State.notify_genBusy (s : State) (h : Half) : (s.notify h).genBusy = s.genBusy :=
  by cases h <;> rfl
@[simp] theorem State.notify_genHalf (s : State) (h : Half) : (s.notify h).genHalf = s.genHalf :=
  by cases h <;> rfl
@[simp] theorem State.notify_genIdx (s : State) (h : Half) : (s.notify h).genIdx = s.genIdx :=
  by cases h <;> rfl
@[simp] theorem State.notify_sampleOut (s : State) (h : Half) : (s.notify h).sampleOut = s.sampleOut :=
  by cases h <;> rfl
@[simp] theorem State.notify_sampleStrobe (s : State) (h : Half) : (s.notify h).sampleStrobe = s.sampleStrobe :=
  by cases h <;> rfl
@[simp] theorem State.notify_rst (s : State) (h : Half) : (s.notify h).rst = s.rst :=
  by cases h <;> rfl
@[simp] theorem State.notify_out (s : State) (h : Half) : (s.notify h).out = s.out :=
  by cases h <;> rfl
@[simp] theorem State.notify_cfg (s : State) (h : Half) : (s.notify h).cfg = s.cfg :=
  by cases h <;> rfl
@[simp] theorem State.notify_resets (s : State) (h : Half) : (s.notify h).resets = s.resets :=
  by cases h <;> rfl
@[simp] theorem State.notify_queue (s : State) (h : Half) : (s.notify h).queue = s.queue :=
  by cases h <;> rfl
@[simp] theorem State.notify_turn (s : State) (h : Half) : (s.notify h).turn = s.turn :=
  by cases h <;> rfl
@[simp] theorem State.notify_passed (s : State) (h : Half) : (s.notify h).passed = s.passed :=
  by cases h <;> rfl

/-! ### `State.crossing` -/

@[simp] theorem State.crossing_phase (s : State) : (s.crossing).phase = s.phase :=
  by unfold State.crossing; split_ifs <;> rfl
@[simp] theorem State.crossing_act (s : State) : (s.crossing).act = s.act :=
  by unfold State.crossing; split_ifs <;> rfl
@[simp] theorem State.crossing_buf (s : State) : (s.crossing).buf = s.buf :=
  by unfold State.crossing; split_ifs <;> rfl
@[simp] theorem State.crossing_cursor (s : State) : (s.crossing).cursor = s.cursor :=
  by unfold State.crossing; split_ifs <;> rfl
@[simp] theorem State.crossing_genBusy (s : State) : (s.crossing).genBusy = s.genBusy :=
  by unfold State.crossing; split_ifs <;> rfl
@[simp] theorem State.crossing_genHalf (s : State) : (s.crossing).genHalf = s.genHalf :=
  by unfold State.crossing; split_ifs <;> rfl
@[simp] theorem State.crossing_genIdx (s : State) : (s.crossing).genIdx = s.genIdx :=
  by unfold State.crossing; split_ifs <;> rfl
@[simp] theorem State.crossing_sampleOut (s : State) : (s.crossing).sampleOut = s.sampleOut :=
  by unfold State.crossing; split_ifs <;> rfl
@[simp] theorem State.crossing_sampleStrobe (s : State) : (s.crossing).sampleStrobe = s.sampleStrobe :=
  by unfold State.crossing; split_ifs <;> rfl
@[simp] theorem State.crossing_rst (s : State) : (s.crossing).rst = s.rst :=
  by unfold State.crossing; split_ifs <;> rfl
@[simp] theorem State.crossing_out (s : State) : (s.crossing).out = s.out :=
  by unfold State.crossing; split_ifs <;> rfl
@[simp] theorem State.crossing_cfg (s : State) : (s.crossing).cfg = s.cfg :=
  by unfold State.crossing; split_ifs <;> rfl
@[simp] theorem State.crossing_resets (s : State) : (s.crossing).resets = s.resets :=
  by unfold State.crossing; split_ifs <;> rfl
@[simp] theorem State.crossing_queue (s : State) : (s.crossing).queue = s.queue :=
  by unfold State.crossing; split_ifs <;> rfl
@[simp] theorem State.crossing_turn (s : State) : (s.crossing).turn = s.turn :=
  by unfold State.crossing; split_ifs <;> rfl
@[simp] theorem State.crossing_passed (s : State) : (s.crossing).passed = s.passed :=
  by unfold State.crossing; split_ifs <;> rfl

/-! ### `State.serve` -/

@[simp] theorem State.serve_phase (s : State) (h : Half) : (s.serve h).phase = s.phase :=
  by cases h <;> rfl
@[simp] theorem State.serve_act (s : State) (h : Half) : (s.serve h).act = s.act :=
  by cases h <;> rfl
@[simp] theorem State.serve_buf (s : State) (h : Half) : (s.serve h).buf = s.buf :=
  by cases h <;> rfl
@[simp] theorem State.serve_cursor (s : State) (h : Half) : (s.serve h).cursor = s.cursor :=
  by cases h <;> rfl
@[simp] theorem State.serve_sampleOut (s : State) (h : Half) : (s.serve h).sampleOut = s.sampleOut :=
  by cases h <;> rfl
@[simp] theorem State.serve_sampleStrobe (s : State) (h : Half) : (s.serve h).sampleStrobe = s.sampleStrobe :=
  by cases h <;> rfl
@[simp] theorem State.serve_rst (s : State) (h : Half) : (s.serve h).rst = s.rst :=
  by cases h <;> rfl
@[simp] theorem State.serve_out (s : State) (h : Half) : (s.serve h).out = s.out :=
  by cases h <;> rfl
@[simp] theorem State.serve_deadlineMiss (s : State) (h : Half) : (s.serve h).deadlineMiss = s.deadlineMiss :=
  by cases h <;> rfl
@[simp] theorem State.serve_cfg (s : State) (h : Half) : (s.serve h).cfg = s.cfg :=
  by cases h <;> rfl
@[simp] theorem State.serve_resets (s : State) (h : Half) : (s.serve h).resets = s.resets :=
  by cases h <;> rfl
@[simp] theorem State.serve_queue (s : State) (h : Half) : (s.serve h).queue = s.queue :=
  by cases h <;> rfl
@[simp] theorem State.serve_turn (s : State) (h : Half) : (s.serve h).turn = s.turn :=
  by cases h <;> rfl
@[simp] theorem State.serve_passed (s : State) (h : Half) : (s.serve h).passed = s.passed :=
  by cases h <;> rfl

/-! ### `State.nextPosition` -/

@[simp] theorem State.nextPosition_phase (s : State) : (s.nextPosition).phase = s.phase :=
  by unfold State.nextPosition; split_ifs <;> rfl
@[simp] theorem State.nextPosition_act (s : State) : (s.nextPosition).act = s.act :=
  by unfold State.nextPosition; split_ifs <;> rfl
@[simp] theorem State.nextPosition_buf (s : State) : (s.nextPosition).buf = s.buf :=
  by unfold State.nextPosition; split_ifs <;> rfl
@[simp] theorem State.nextPosition_cursor (s : State) : (s.nextPosition).cursor = s.cursor :=
  by unfold State.nextPosition; split_ifs <;> rfl
@[simp] theorem State.nextPosition_pending0 (s : State) : (s.nextPosition).pending0 = s.pending0 :=
  by unfold State.nextPosition; split_ifs <;> rfl
@[simp] theorem State.nextPosition_pending1 (s : State) : (s.nextPosition).pending1 = s.pending1 :=
  by unfold State.nextPosition; split_ifs <;> rfl
@[simp] theorem State.nextPosition_genHalf (s : State) : (s.nextPosition).genHalf = s.genHalf :=
  by unfold State.nextPosition; split_ifs <;> rfl
@[simp] theorem State.nextPosition_sampleOut (s : State) : (s.nextPosition).sampleOut = s.sampleOut :=
  by unfold State.nextPosition; split_ifs <;> rfl
@[simp] theorem State.nextPosition_sampleStrobe (s : State) : (s.nextPosition).sampleStrobe = s.sampleStrobe :=
  by unfold State.nextPosition; split_ifs <;> rfl
@[simp] theorem State.nextPosition_rst (s : State) : (s.nextPosition).rst = s.rst :=
  by unfold State.nextPosition; split_ifs <;> rfl
@[simp] theorem State.nextPosition_out (s : State) : (s.nextPosition).out = s.out :=
  by unfold State.nextPosition; split_ifs <;> rfl
@[simp] theorem State.nextPosition_deadlineMiss (s : State) : (s.nextPosition).deadlineMiss = s.deadlineMiss :=
  by unfold State.nextPosition; split_ifs <;> rfl
@[simp] theorem State.nextPosition_cfg (s : State) : (s.nextPosition).cfg = s.cfg :=
  by unfold State.nextPosition; split_ifs <;> rfl
@[simp] theorem State.nextPosition_resets (s : State) : (s.nextPosition).resets = s.resets :=
  by unfold State.nextPosition; split_ifs <;> rfl
@[simp] theorem State.nextPosition_queue (s : State) : (s.nextPosition).queue = s.queue :=
  by unfold State.nextPosition; split_ifs <;> rfl
@[simp] theorem State.nextPosition_turn (s : State) : (s.nextPosition).turn = s.turn :=
  by unfold State.nextPosition; split_ifs <;> rfl
@[simp] theorem State.nextPosition_passed (s : State) : (s.nextPosition).passed = s.passed :=
  by unfold State.nextPosition; split_ifs <;> rfl

/-! ### `State.consume` -/

@[simp] theorem State.consume_phase (s : State) : (s.consume).phase = s.phase :=
  by unfold State.consume; split <;> rfl
@[simp] theorem State.consume_act (s : State) : (s.consume).act = s.act :=
  by unfold State.consume; split <;> rfl
@[simp] theorem State.consume_buf (s : State) : (s.consume).buf = s.buf :=
  by unfold State.consume; split <;> rfl
@[simp] theorem State.consume_cursor (s : State) : (s.consume).cursor = s.cursor :=
  by unfold State.consume; split <;> rfl
@[simp] theorem State.consume_pending0 (s : State) : (s.consume).pending0 = s.pending0 :=
  by unfold State.consume; split <;> rfl
@[simp] theorem State.consume_pending1 (s : State) : (s.consume).pending1 = s.pending1 :=
  by unfold State.consume; split <;> rfl
@[simp] theorem State.consume_genBusy (s : State) : (s.consume).genBusy = s.genBusy :=
  by unfold State.consume; split <;> rfl
@[simp] theorem State.consume_genHalf (s : State) : (s.consume).genHalf = s.genHalf :=
  by unfold State.consume; split <;> rfl
@[simp] theorem State.consume_genIdx (s : State) : (s.consume).genIdx = s.genIdx :=
  by unfold State.consume; split <;> rfl
@[simp] theorem State.consume_sampleOut (s : State) : (s.consume).sampleOut = s.sampleOut :=
  by unfold State.consume; split <;> rfl
@[simp] theorem State.consume_sampleStrobe (s : State) : (s.consume).sampleStrobe = s.sampleStrobe :=
  by unfold State.consume; split <;> rfl
@[simp] theorem State.consume_rst (s : State) : (s.consume).rst = s.rst :=
  by unfold State.consume; split <;> rfl
@[simp] theorem State.consume_out (s : State) : (s.consume).out = s.out :=
  by unfold State.consume; split <;> rfl
@[simp] theorem State.consume_deadlineMiss (s : State) : (s.consume).deadlineMiss = s.deadlineMiss :=
  by unfold State.consume; split <;> rfl
@[simp] theorem State.consume_cfg (s : State) : (s.consume).cfg = s.cfg :=
  by unfold State.consume; split <;> rfl
@[simp] theorem State.consume_resets (s : State) : (s.consume).resets = s.resets :=
  by unfold State.consume; split <;> rfl

/-! ### `State.place` -/

@[simp] theorem State.place_phase (s : State) (w : Word) : (s.place w).phase = s.phase :=
  rfl
@[simp] theorem State.place_act (s : State) (w : Word) : (s.place w).act = s.act :=
  rfl
@[simp] theorem State.place_buf (s : State) (w : Word) : (s.place w).buf = s.buf :=
  rfl
@[simp] theorem State.place_cursor (s : State) (w : Word) : (s.place w).cursor = s.cursor :=
  rfl
@[simp] theorem State.place_pending0 (s : State) (w : Word) : (s.place w).pending0 = s.pending0 :=
  rfl
@[simp] theorem State.place_pending1 (s : State) (w : Word) : (s.place w).pending1 = s.pending1 :=
  rfl
@[simp] theorem State.place_genBusy (s : State) (w : Word) : (s.place w).genBusy = s.genBusy :=
  rfl
@[simp] theorem State.place_genHalf (s : State) (w : Word) : (s.place w).genHalf = s.genHalf :=
  rfl
@[simp] theorem State.place_genIdx (s : State) (w : Word) : (s.place w).genIdx = s.genIdx :=
  rfl
@[simp] theorem State.place_sampleOut (s : State) (w : Word) : (s.place w).sampleOut = s.sampleOut :=
  rfl
@[simp] theorem State.place_sampleStrobe (s : State) (w : Word) : (s.place w).sampleStrobe = s.sampleStrobe :=
  rfl
@[simp] theorem State.place_out (s : State) (w : Word) : (s.place w).out = s.out :=
  rfl
@[simp] theorem State.place_deadlineMiss (s : State) (w : Word) : (s.place w).deadlineMiss = s.deadlineMiss :=
  rfl
@[simp] theorem State.place_cfg (s : State) (w : Word) : (s.place w).cfg = s.cfg :=
  rfl
@[simp] theorem State.place_resets (s : State) (w : Word) : (s.place w).resets = s.resets :=
  rfl
@[simp] theorem State.place_turn (s : State) (w : Word) : (s.place w).turn = s.turn :=
  rfl
@[simp] theorem State.place_passed (s : State) (w : Word) : (s.place w).passed = s.passed :=
  rfl

/-! ### The fields an update writes -/

@[simp] theorem State.bufWrite_buf (s : State) (slot : Slot) (v : Sample) :
    (s.bufWrite slot v).buf = Memory.insert s.buf slot.toNat v := rfl
@[simp] theorem State.emit_sampleOut (s : State) (v : Sample) : (s.emit v).sampleOut = v := rfl
@[simp] theorem State.emit_sampleStrobe (s : State) (v : Sample) :
    (s.emit v).sampleStrobe = true := rfl
@[simp] theorem State.emit_out (s : State) (v : Sample) : (s.emit v).out = s.out ++ [v] := rfl
@[simp] theorem State.advanceCursor_cursor (s : State) : s.advanceCursor.cursor = s.cursor + 1#8 := by
  apply BitVec.eq_of_toNat_eq
  simp [State.advanceCursor]
@[simp] theorem State.advanceVoices_phase (s : State) (A : BitVec 12) :
    (s.advanceVoices A).phase = advancePhases s.cfg s.phase A := rfl

@[simp] theorem State.setPending_pending (s : State) (h k : Half) (v : Bool) :
    (s.setPending h v).pending k = if k = h then v else s.pending k := by
  cases h <;> cases k <;> rfl

@[simp] theorem State.notify_pending (s : State) (h k : Half) :
    (s.notify h).pending k = if k = otherHalf h then true else s.pending k := by
  cases h <;> cases k <;> rfl

@[simp] theorem State.notify_deadlineMiss (s : State) (h : Half) :
    (s.notify h).deadlineMiss = (s.deadlineMiss || s.unrefilled h) := by
  cases h <;> rfl

@[simp] theorem State.serve_pending (s : State) (h k : Half) :
    (s.serve h).pending k = if k = h then false else s.pending k := by
  cases h <;> cases k <;> rfl
@[simp] theorem State.serve_genHalf (s : State) (h : Half) : (s.serve h).genHalf = h := rfl
@[simp] theorem State.serve_genIdx (s : State) (h : Half) : (s.serve h).genIdx = 0#7 := rfl
@[simp] theorem State.serve_genBusy (s : State) (h : Half) : (s.serve h).genBusy = true := rfl

@[simp] theorem State.place_rst (s : State) (w : Word) : (s.place w).rst = false := rfl
@[simp] theorem State.place_queue (s : State) (w : Word) :
    (s.place w).queue = eventOfWord w :: s.queue := rfl

/-- `active[j]` after a write of `active[n]`. -/
@[simp] theorem State.setActive_isActive (s : State) (n j : Voice) (v : Bool) :
    isActive (s.setActive n v).act j = if j = n then v else isActive s.act j := by
  simp only [isActive, State.setActive]
  rw [BitVec.getLsbD_ofFnLE]
  simp [j.isLt]

/-- The next position after the 128th slot and before it. -/
theorem State.nextPosition_last (s : State) (h : s.genIdx = 127#7) :
    s.nextPosition = { s with genIdx := 0#7, genBusy := false } :=
  if_pos (by simp [h])

theorem State.nextPosition_more (s : State) (h : s.genIdx ≠ 127#7) :
    s.nextPosition = { s with genIdx := s.genIdx + 1#7 } :=
  if_neg fun e => h (BitVec.eq_of_toNat_eq (by simp at e ⊢; omega))

/-- The notifications, with the parameters' values. -/
theorem State.crossing_eq (s : State) :
    s.crossing =
      if s.cursor = 128#8 then s.notify .half1
      else if s.cursor = 0#8 then s.notify .half0 else s := by
  simp only [State.crossing, Config.halfSize_eq, ← BitVec.toNat_inj]
  rfl

/-- What a notification crossing does to the requests and the miss. -/
theorem State.crossing_pending (s : State) (k : Half) :
    s.crossing.pending k =
      (s.pending k || decide (s.cursor = 128#8 ∧ k = .half0) || decide (s.cursor = 0#8 ∧ k = .half1)) := by
  rw [State.crossing_eq]
  by_cases h1 : s.cursor = 128#8
  · cases k <;> simp [h1, otherHalf]
  · by_cases h2 : s.cursor = 0#8
    · cases k <;> simp [h2, otherHalf]
    · simp [h1, h2]

theorem State.crossing_deadlineMiss (s : State) :
    s.crossing.deadlineMiss =
      (s.deadlineMiss || (decide (s.cursor = 128#8) && s.unrefilled .half1) ||
        (decide (s.cursor = 0#8) && s.unrefilled .half0)) := by
  rw [State.crossing_eq]
  by_cases h1 : s.cursor = 128#8
  · simp [h1]
  · by_cases h2 : s.cursor = 0#8
    · simp [h2]
    · simp [h1, h2]

end Sys2Proof.Machine
end

