-- ==== Sys2Proof/Laws/Memory.lean ====
section
/-!
SUPPORT. The buffer: a read after a write, and that every memory operation keeps the canonical form
(20_memory.md R57, R61).
-/
namespace Sys2Proof.Machine

@[simp] theorem Memory.find_insert_same (m : Memory) (a : Nat) (v : Sample) :
    Memory.find (Memory.insert m a v) a = some v := by
  induction m with
  | nil => simp [Memory.insert, Memory.find]
  | cons c m ih =>
    obtain ⟨b, u⟩ := c
    simp only [Memory.insert]
    split_ifs <;> simp_all [Memory.find]

theorem Memory.find_insert_other (m : Memory) {a b : Nat} (v : Sample) (h : b ≠ a) :
    Memory.find (Memory.insert m a v) b = Memory.find m b := by
  induction m with
  | nil => simp [Memory.insert, Memory.find, h]
  | cons c m ih =>
    obtain ⟨k, u⟩ := c
    simp only [Memory.insert]
    split_ifs with h1 h2
    · simp [Memory.find, h]
    · subst h2; simp [Memory.find, h]
    · simp [Memory.find, ih]

/-- A read after a write, in one equation. -/
theorem Memory.find_insert (m : Memory) (a b : Nat) (v : Sample) :
    Memory.find (Memory.insert m a v) b = if b = a then some v else Memory.find m b := by
  by_cases h : b = a
  · subst h; simp
  · simp [h, Memory.find_insert_other m v h]

theorem Memory.risesFrom_insert (m : Memory) (lo a : Nat) (v : Sample) (hlo : lo ≤ a)
    (ha : a < 256) (h : Memory.risesFrom lo m = true) :
    Memory.risesFrom lo (Memory.insert m a v) = true := by
  induction m generalizing lo with
  | nil => simp [Memory.insert, Memory.risesFrom, hlo, ha]
  | cons c m ih =>
    obtain ⟨b, u⟩ := c
    simp only [Memory.risesFrom, Bool.and_eq_true, decide_eq_true_eq] at h
    obtain ⟨⟨h1, h2⟩, h3⟩ := h
    simp only [Memory.insert]
    split_ifs with hb he
    · simp [Memory.risesFrom, hlo, h3, h2, Nat.succ_le_of_lt hb]
      exact ha
    · subst he; simp [Memory.risesFrom, h1, h2, h3]
    · simp [Memory.risesFrom, h1, h2, ih (b + 1) (by omega) h3]

/-- Every write keeps the canonical form. -/
theorem Memory.wf_insert (m : Memory) (a : Nat) (v : Sample) (ha : a < 256)
    (h : Memory.wf m = true) : Memory.wf (Memory.insert m a v) = true :=
  Memory.risesFrom_insert m 0 a v (Nat.zero_le a) ha h

theorem State.bufWrite_wf (s : State) (slot : Slot) (v : Sample) (h : Memory.wf s.buf = true) :
    Memory.wf (s.bufWrite slot v).buf = true :=
  Memory.wf_insert s.buf slot.toNat v slot.isLt h

theorem State.initial_buf_wf (cfg : Config) (n : Nat) :
    Memory.wf (State.initial cfg n).buf = true := rfl

/-- Nothing below the bound is listed. -/
theorem Memory.find_below (m : Memory) (lo a : Nat) (h : Memory.risesFrom lo m = true)
    (ha : a < lo) : Memory.find m a = none := by
  induction m generalizing lo with
  | nil => rfl
  | cons c m ih =>
    obtain ⟨b, u⟩ := c
    simp only [Memory.risesFrom, Bool.and_eq_true, decide_eq_true_eq] at h
    have hne : a ≠ b := by omega
    simp [Memory.find, hne, ih (b + 1) h.2 (by omega)]

/-- Buffers in canonical form with the same written contents are the same data. -/
theorem Memory.ext_of_wf (m n : Memory) (lo : Nat) (hm : Memory.risesFrom lo m = true)
    (hn : Memory.risesFrom lo n = true) (h : ∀ a, Memory.find m a = Memory.find n a) : m = n := by
  induction m generalizing lo n with
  | nil =>
    cases n with
    | nil => rfl
    | cons c n => have := h c.1; simp [Memory.find] at this
  | cons c m ih =>
    obtain ⟨b, u⟩ := c
    cases n with
    | nil => have := h b; simp [Memory.find] at this
    | cons d n =>
      obtain ⟨e, w⟩ := d
      simp only [Memory.risesFrom, Bool.and_eq_true, decide_eq_true_eq] at hm hn
      have hbe : b = e := by
        rcases Nat.lt_trichotomy b e with hlt | heq | hgt
        · have h1 := h b
          have h2 := Memory.find_below n (e + 1) b hn.2 (by omega)
          simp [Memory.find, Nat.ne_of_lt hlt, h2] at h1
        · exact heq
        · have h1 := h e
          have h2 := Memory.find_below m (b + 1) e hm.2 (by omega)
          simp [Memory.find, Nat.ne_of_lt hgt, h2] at h1
      subst hbe
      have huw : u = w := by have := h b; simpa [Memory.find] using this
      subst huw
      have htail : m = n := by
        refine ih n (b + 1) hm.2 hn.2 fun a => ?_
        by_cases hab : a = b
        · subst hab
          rw [Memory.find_below m (a + 1) a hm.2 (by omega),
            Memory.find_below n (a + 1) a hn.2 (by omega)]
        · have := h a; simpa [Memory.find, hab] using this
      rw [htail]

@[simp] theorem State.bufRead_bufWrite_same (s : State) (slot : Slot) (v : Sample) :
    (s.bufWrite slot v).bufRead slot = v := by
  simp [State.bufRead]

theorem State.bufRead_bufWrite_other (s : State) {slot a : Slot} (v : Sample) (h : a ≠ slot) :
    (s.bufWrite slot v).bufRead a = s.bufRead a := by
  have hne : a.toNat ≠ slot.toNat := fun e => h (BitVec.eq_of_toNat_eq e)
  simp [State.bufRead, Memory.find_insert_other _ _ hne]

/-- A read depends on the written contents and on the draw only. -/
theorem State.bufRead_congr {s t : State} (hb : t.buf = s.buf) (hr : t.resets = s.resets)
    (a : Slot) : t.bufRead a = s.bufRead a := by
  simp [State.bufRead, hb, hr]

end Sys2Proof.Machine
end

