-- ==== Sys2Proof/Laws/PerInstr.lean ====
section
/-!
SUPPORT. Per instruction: the format of its word tells its agent (30_encoding.md R72, R73).
-/
namespace Sys2Proof.Laws.FormatOfWord

/-- Bit 15 of the word is 0 exactly for the host's operations. -/
def Statement (i : Instr) : Prop := isEventFormat (encode i) = !i.isHost

theorem nop (low : BitVec 12) : Statement (.nop low) := by
  simp only [Statement, isEventFormat, encode, Instr.isHost, BitVec.getLsbD_append]
  rfl

theorem setact (note : BitVec 4) (v : Bool) : Statement (.setact note v) := by
  simp only [Statement, isEventFormat, encode, Instr.isHost, BitVec.getLsbD_append]
  rfl

theorem tick : Statement .tick := by unfold Statement; decide

theorem arbstart : Statement .arbstart := by unfold Statement; decide

theorem genslot : Statement .genslot := by unfold Statement; decide

end Sys2Proof.Laws.FormatOfWord
end

