-- ==== Sys2Proof/Laws/Step.lean ====
section
/-!
SUPPORT. What each operation, each event and a step can answer: one lemma each, to be cited
in place of unfolding them.
-/
namespace Sys2Proof.Machine

/-! ### Frames: each composite update writes only the fields it is set to -/

theorem State.crossing_frame (s : State) :
    s.crossing = { s with
      pending0 := s.crossing.pending0, pending1 := s.crossing.pending1,
      deadlineMiss := s.crossing.deadlineMiss } := by
  unfold State.crossing; split_ifs <;> rfl

theorem State.serve_frame (s : State) (h : Half) :
    s.serve h = { s with
      pending0 := (s.serve h).pending0, pending1 := (s.serve h).pending1, genHalf := h,
      genIdx := 0#7, genBusy := true } := by
  cases h <;> rfl

theorem State.drain_frame (s : State) :
    s.drain = { s with
      sampleOut := s.bufRead s.cursor, sampleStrobe := true, out := s.out ++ [s.bufRead s.cursor],
      cursor := s.cursor + 1#8, pending0 := s.drain.pending0, pending1 := s.drain.pending1,
      deadlineMiss := s.drain.deadlineMiss } := by
  have h := State.crossing_frame (s.emit (s.bufRead s.cursor)).advanceCursor
  unfold State.drain
  rw [h]
  simp

theorem State.genSlot_frame (s : State) :
    s.genSlot = { s with
      buf := Memory.insert s.buf (slotAt s.cfg s.genHalf s.genIdx).toNat (mixSample s.cfg s.phase s.act),
      phase := advancePhases s.cfg s.phase s.act,
      genIdx := if s.genIdx = 127#7 then 0#7 else s.genIdx + 1#7,
      genBusy := s.genBusy && decide (s.genIdx ≠ 127#7) } := by
  unfold State.genSlot
  by_cases h : s.genIdx = 127#7
  · refine (State.nextPosition_last (State.advanceVoices _ _) (by simpa using h)).trans ?_
    simp [State.advanceVoices, State.bufWrite, h]
  · refine (State.nextPosition_more (State.advanceVoices _ _) (by simpa using h)).trans ?_
    simp [State.advanceVoices, State.bufWrite, h]

/-! ### Operands -/

theorem mem_voices (j : Voice) : j ∈ voices := by revert j; decide

/-- Two words of flags are the same if every flag is. -/
theorem flags_ext {A B : BitVec 12} (h : ∀ j, isActive A j = isActive B j) : A = B := by
  apply BitVec.eq_of_getLsbD_eq
  intro i hi
  exact h ⟨i, hi⟩

/-! ### The operations -/

@[simp] theorem execNop_eq (low : BitVec 12) (s : State) : exec (.nop low) s = .next s := rfl

theorem execSetact_voice {note : BitVec 4} {j : Voice} {s : State} (h : noteVoice s.cfg note = some j)
    (v : Bool) : exec (.setact note v) s = .next (s.setActive j v) := by
  simp [exec, execSetact, h]

theorem execSetact_noVoice {note : BitVec 4} {s : State} (h : noteVoice s.cfg note = none) (v : Bool) :
    exec (.setact note v) s = .next s := by
  simp [exec, execSetact, h]

@[simp] theorem execTick_eq (s : State) : exec .tick s = .next s.drain := rfl

theorem execArbstart_enabled {s : State} (h : s.arbEnabled = true) :
    exec .arbstart s = .next (s.serve s.servedHalf) := by
  simp [exec, execArbstart, h]

theorem execArbstart_idle {s : State} (h : s.arbEnabled = false) :
    exec .arbstart s = .fault (.notEnabled .arbstart) := by
  simp [exec, execArbstart, h]

theorem execGenslot_idle {s : State} (h : s.genBusy = false) :
    exec .genslot s = .fault (.notEnabled .genslot) := by
  simp [exec, execGenslot, State.genEnabled, h]

theorem withConfig_legal {c : Config} (h : configLegal c = true)
    (k : Host.Outcome State Fault Refusal) : withConfig c k = k := by
  have : illFormedStep c = none := by simpa [configLegal] using h
  simp [withConfig, this]

theorem withConfig_next {c : Config} {k : Host.Outcome State Fault Refusal} {t : State}
    (h : withConfig c k = .next t) : configLegal c = true ∧ k = .next t := by
  unfold withConfig at h
  split at h
  · cases h
  · rename_i e; exact ⟨by simp [configLegal, e], h⟩

theorem execGenslot_ready {s : State} (hb : s.genBusy = true) (hc : configLegal s.cfg = true)
    (hp : unreadableVoice s.phase s.act = none) : exec .genslot s = .next s.genSlot := by
  simp [exec, execGenslot, State.genEnabled, hb, withConfig_legal hc, hp]

/-- What an operation can do when it answers a next state. -/
theorem exec_cases {i : Instr} {s t : State} (h : exec i s = .next t) :
    (t = s ∧ ∃ low, i = .nop low) ∨
    (∃ note v, i = .setact note v ∧
      ((∃ j, noteVoice s.cfg note = some j ∧ t = s.setActive j v) ∨ noteVoice s.cfg note = none ∧ t = s)) ∨
    (i = .tick ∧ t = s.drain) ∨
    (i = .arbstart ∧ s.arbEnabled = true ∧ t = s.serve s.servedHalf) ∨
    (i = .genslot ∧ s.genBusy = true ∧ configLegal s.cfg = true ∧
      unreadableVoice s.phase s.act = none ∧ t = s.genSlot) := by
  cases i with
  | nop low => simp at h; exact .inl ⟨h.symm, low, rfl⟩
  | setact note v =>
    refine .inr (.inl ⟨note, v, rfl, ?_⟩)
    cases hv : noteVoice s.cfg note with
    | none => rw [execSetact_noVoice hv] at h; simp at h; exact .inr ⟨rfl, h.symm⟩
    | some j => rw [execSetact_voice hv] at h; simp at h; exact .inl ⟨j, rfl, h.symm⟩
  | tick => simp at h; exact .inr (.inr (.inl ⟨rfl, h.symm⟩))
  | arbstart =>
    refine .inr (.inr (.inr (.inl ⟨rfl, ?_⟩)))
    cases he : s.arbEnabled with
    | false => rw [execArbstart_idle he] at h; cases h
    | true => rw [execArbstart_enabled he] at h; simp at h; exact ⟨rfl, h.symm⟩
  | genslot =>
    refine .inr (.inr (.inr (.inr ⟨rfl, ?_⟩)))
    cases hb : s.genBusy with
    | false => rw [execGenslot_idle hb] at h; cases h
    | true =>
      simp only [exec, execGenslot, State.genEnabled, hb, if_true] at h
      obtain ⟨hc, hk⟩ := withConfig_next h
      cases hu : unreadableVoice s.phase s.act with
      | some j => rw [hu] at hk; cases hk
      | none => rw [hu] at hk; simp at hk; exact ⟨rfl, hc, rfl, hk.symm⟩

/-! ### Events and steps -/

/-- Outside a reset an event word runs the step it names. -/
theorem State.take_agentStep {s : State} {w : Word} {i : Instr} (hr : s.rst = false)
    (hd : decodeEvent w = .ok i) : s.take (.agentStep w) = exec i s := by
  simp [State.take, State.takeAgentStep, hd, hr]

/-- Outside a reset the event of a step of the sample clock, the arbiter or the generator runs it. -/
theorem State.take_eventOf {s : State} {i : Instr} (hr : s.rst = false) (hi : i.isHost = false) :
    s.take (eventOf i) = exec i s := by
  cases i with
  | nop low => cases hi
  | setact note v => cases hi
  | tick => exact State.take_agentStep hr (by decide)
  | arbstart => exact State.take_agentStep hr (by decide)
  | genslot => exact State.take_agentStep hr (by decide)

/-- What an event can do when it answers a next state. -/
theorem State.take_cases {s t : State} {e : Event} (h : s.take e = .next t) :
    (∃ b, e = .clkEdge b ∧ t = s.clockEdge b) ∨
    (t = s) ∨
    (s.rst = false ∧ ∃ i, exec i s = .next t ∧
      ((∃ w, e = .hostCmd w ∧ decodeHost w = .op i) ∨
        (∃ w, e = .agentStep w ∧ decodeEvent w = .ok i))) := by
  cases e with
  | clkEdge b => simp [State.take] at h; exact .inl ⟨b, rfl, h.symm⟩
  | hostCmd w =>
    simp only [State.take, State.takeHostCmd] at h
    split at h
    · simp at h; exact .inr (.inl h.symm)
    · rename_i hr
      split at h
      · rename_i i hd
        exact .inr (.inr ⟨by simpa using hr, i, h, .inl ⟨w, rfl, hd⟩⟩)
      · simp [ignoreHostWord] at h; exact .inr (.inl h.symm)
  | agentStep w =>
    simp only [State.take, State.takeAgentStep] at h
    split at h
    · cases h
    · rename_i i hd
      split at h
      · split at h
        · simp at h; exact .inr (.inl h.symm)
        · cases h
      · rename_i hr
        exact .inr (.inr ⟨by simpa using hr, i, h, .inr ⟨w, rfl, hd⟩⟩)

/-- A step is the next event, under a legal configuration. -/
theorem step_next {s t : State} (h : step s = .next t) :
    configLegal s.cfg = true ∧ s.consume.take s.nextEvent = .next t :=
  withConfig_next h

theorem step_legal {s : State} (h : configLegal s.cfg = true) :
    step s = s.consume.take s.nextEvent :=
  withConfig_legal h _

/-- With an event placed, the step is that event in the state without it. -/
theorem step_placed {s : State} {e : Event} {rest : List Event} (h : configLegal s.cfg = true)
    (hq : s.queue = e :: rest) : step s = State.take { s with queue := rest } e := by
  rw [step_legal h]
  simp [State.nextEvent, State.consume, hq]

/-! ### The free order -/

theorem State.enabledStep_arbiter {s : State} (hr : s.rst = false) (h : s.arbEnabled = true) :
    s.enabledStep = some (.agentStep 0x9000#16) := by
  simp [State.enabledStep, hr, h]

theorem State.enabledStep_generator {s : State} (hr : s.rst = false) (h : s.genEnabled = true) :
    s.enabledStep = some (.agentStep 0xA000#16) := by
  have hb : s.genBusy = true := h
  simp [State.enabledStep, State.arbEnabled, hr, h, hb]

/-- The arbiter's or the generator's step is an event that can happen wherever it is enabled. -/
theorem State.admits_enabledStep {s : State} {e : Event} (h : s.enabledStep = some e) :
    s.admits e = true := by
  unfold State.enabledStep at h
  split_ifs at h with hr ha hg
  · cases h
    simp [State.admits, show decodeEvent 0x9000#16 = .ok .arbstart by decide, hr, ha]
  · cases h
    simp [State.admits, show decodeEvent 0xA000#16 = .ok .genslot by decide, hr, hg]

theorem State.admits_freeOrIdle (s : State) : s.admits s.freeOrIdle = true := by
  simp only [State.freeOrIdle]
  split_ifs with h
  · exact h
  · rfl

/-- What the free choice is, it can happen. -/
theorem State.admits_freeChoice (s : State) : s.admits s.freeChoice = true := by
  unfold State.freeChoice
  split
  · split_ifs
    · exact State.admits_enabledStep (by assumption)
    · exact s.admits_freeOrIdle
  · exact s.admits_freeOrIdle

/-- Weak fairness of the free choice (R139): it passes over an enabled step of the arbiter or the
generator only while that step's wait is not over, and the wait then has one turn more. -/
theorem State.freeChoice_passes {s : State} {e : Event} (h : s.enabledStep = some e)
    (hne : s.freeChoice ≠ e) :
    s.passed < Config.freePatience (s.turn - s.passed) ∧ s.passedNext = s.passed + 1 := by
  refine ⟨?_, by simp [State.passedNext, h, hne]⟩
  by_contra hp
  refine hne ?_
  simp [State.freeChoice, h, State.patienceSpent, Nat.not_lt.1 hp]

/-- What a step can do: a clock edge, nothing, or one operation, after the event is consumed. -/
theorem step_cases {s t : State} (h : step s = .next t) :
    (∃ b, s.nextEvent = .clkEdge b ∧ t = s.consume.clockEdge b) ∨ t = s.consume ∨
    (s.rst = false ∧ ∃ i, exec i s.consume = .next t) := by
  obtain ⟨_, h⟩ := step_next h
  rcases State.take_cases h with ⟨b, h1, h2⟩ | h | ⟨h1, i, h2, _⟩
  · exact .inl ⟨b, h1, h2⟩
  · exact .inr (.inl h)
  · exact .inr (.inr ⟨by simpa using h1, i, h2⟩)

end Sys2Proof.Machine
end

