-- ==== Sys2Proof/Laws/Table.lean ====
section
/-!
SUPPORT. The sine table has 256 words (20_memory.md R50), none above 4094 (R53).
-/
namespace Sys2Proof.Machine

theorem tableWords_length : tableWords.length = 256 := by decide +kernel

theorem tableWords_all_le : tableWords.all (fun v => decide (v.toNat ≤ 4094)) = true := by
  decide +kernel

theorem tableRead_some {i : Nat} (h : i < 256) : ∃ v, tableRead i = some v := by
  have hi : i < tableWords.length := by rw [tableWords_length]; exact h
  exact ⟨_, List.getElem?_eq_getElem hi⟩

theorem tableRead_le {i : Nat} {v : Sample} (h : tableRead i = some v) : v.toNat ≤ 4094 := by
  have := List.all_eq_true.1 tableWords_all_le v (List.mem_of_getElem? h)
  simpa using this

end Sys2Proof.Machine
end

