-- ==== Sys2Proof/Tests/Slice0.lean ====
section
/-!
SUPPORT. Small tests with expected results from the spec (30_encoding.md R79, 95_test_vectors.md),
and for each statement with hypotheses a state and operands that meet them.
-/
open Sys2Proof Sys2Proof.Machine

namespace Sys2Proof.Tests

set_option Elab.async false

/-! ## States -/

/-- The reset state with one event placed. -/
def placed (e : Event) : State := { State.reset with queue := [e] }

/-- The same while `rst` is held. -/
def held (e : Event) : State := { placed e with rst := true }

/-- A refill in progress. -/
def refill (h : Half) (idx : BitVec 7) (act : BitVec 12) : State :=
  { State.reset with genBusy := true, genHalf := h, genIdx := idx, act := act }

/-- Requests pending, the cursor at a slot. -/
def asked (p0 p1 : Bool) (c : Slot) : State :=
  { State.reset with pending0 := p0, pending1 := p1, cursor := c }

/-- The default configuration with one step replaced. -/
def withStep (j : Voice) (b : F32) : State :=
  { State.reset with cfg := { phaseStep := defaultPhaseStep.set j.val b j.isLt } }

/-- The phase of voice `j` replaced. -/
def withPhase (s : State) (j : Voice) (b : F32) : State :=
  { s with phase := s.phase.set j.val b j.isLt }

/-- What `f` reads from a next state. -/
def after {α : Type} (o : Host.Outcome State Fault Refusal) (f : State → α) : Option α :=
  match o with
  | .next t => some (f t)
  | .fault _ => none
  | .refused _ => none

/-! ## Well-formedness -/

/-- R74: NOTE is legal from 0 to 11. -/
theorem test_wellFormed_notes :
    (Instr.setact 11#4 true).wellFormed = true ∧ (Instr.setact 12#4 true).wellFormed = false ∧
    (Instr.setact 15#4 false).wellFormed = false ∧ (Instr.nop 0xFFF#12).wellFormed = true := by
  decide

/-- V-S3, V-S4: refused steps. -/
theorem test_config_refused_steps :
    (illFormedStep (withStep 9 0x43800000#32).cfg = some 9) ∧
    (illFormedStep (withStep 0 0x80000000#32).cfg = some 0) ∧
    (illFormedStep (withStep 11 0xBF800000#32).cfg = some 11) ∧
    (illFormedStep (withStep 3 0x7FC00000#32).cfg = some 3) ∧
    (illFormedStep (withStep 3 0x7F800000#32).cfg = some 3) := by decide +kernel

/-- V-S5 and R28: accepted steps. -/
theorem test_config_accepted_steps :
    configLegal (withStep 9 0x00000000#32).cfg = true ∧
    configLegal (withStep 9 0x437FFFFF#32).cfg = true ∧
    configLegal defaultConfig = true := by decide +kernel

/-- R7 and R8: the parameters. -/
theorem test_config_parameters :
    [defaultConfig.noteCount, defaultConfig.tableSize, defaultConfig.sampleRate,
      defaultConfig.bufferSize, defaultConfig.halfSize, defaultConfig.refFreq,
      defaultConfig.refIndex, defaultConfig.maxOut, defaultConfig.amplitude, defaultConfig.mid] =
    [12, 256, 48000, 256, 128, 440, 9, 4095, 4095, 2047] := by decide +kernel

/-! ## Decoding, words written out from R70 and R71 -/

theorem test_decode_nop : decodeHost 0b0000101010111100#16 = .op (.nop 0xABC#12) := by decide

theorem test_decode_setact : decodeHost 0b0001100100000001#16 = .op (.setact 9#4 true) := by decide

theorem test_decode_setact_off : decodeHost 0b0001101100000000#16 = .op (.setact 11#4 false) := by
  decide

theorem test_decode_tick : decodeEvent 0b1000000000000000#16 = .ok .tick := by decide

theorem test_decode_arbstart : decodeEvent 0b1001000000000000#16 = .ok .arbstart := by decide

theorem test_decode_genslot : decodeEvent 0b1010000000000000#16 = .ok .genslot := by decide

/-- V-H6, V-H7: ignored host words. -/
theorem test_decode_ignored :
    decodeHost 0b0001110000000001#16 = .ignored 0x1C01#16 ∧
    decodeHost 0b0001100110000000#16 = .ignored 0x1980#16 ∧
    decodeHost 0b1010000000000000#16 = .ignored 0xA000#16 ∧
    decodeHost 0b1111000100100011#16 = .ignored 0xF123#16 := by decide

/-- V-E2: refused event words. -/
theorem test_decode_badEvent :
    decodeEvent 0x8001#16 = .error (.badEventWord 0x8001#16) ∧
    decodeEvent 0x9100#16 = .error (.badEventWord 0x9100#16) ∧
    decodeEvent 0xB000#16 = .error (.badEventWord 0xB000#16) ∧
    decodeEvent 0xFFFF#16 = .error (.badEventWord 0xFFFF#16) := by decide

/-! ## One step of each operation -/

/-- V-H5. -/
theorem test_nop_leaves_flags :
    after (exec (.nop 0xABC#12) (refill .half0 3#7 0x200#12)) (fun t => (t.act, t.genIdx)) =
      some (0x200#12, 3#7) := by decide +kernel

/-- V-H1 and R102: from reset, `0x1901` gives `ACT` = `0b001000000000`. -/
theorem test_setact_note9_on :
    after (step (placed (.hostCmd 0x1901#16))) (fun t => (t.act, t.phase, t.queue)) =
      some (0b001000000000#12, Vector.replicate 12 0#32, []) := by decide +kernel

/-- V-H2. -/
theorem test_setact_note9_off :
    after (exec (.setact 9#4 false) (refill .half0 0#7 0x201#12)) (fun t => t.act) =
      some 0x001#12 := by decide +kernel

/-- V-X2. -/
theorem test_tick_half_consumed :
    after (exec .tick { State.reset with cursor := 127#8, buf := [(127, 5#12)] })
      (fun t => (t.sampleOut, t.out, t.cursor, t.pending0, t.pending1, t.deadlineMiss)) =
      some (5#12, [5#12], 128#8, true, false, false) := by decide +kernel

/-- V-X4. -/
theorem test_tick_missed_deadline :
    after (exec .tick (asked true false 255#8))
      (fun t => (t.cursor, t.pending0, t.pending1, t.deadlineMiss)) =
      some (0#8, true, true, true) := by decide +kernel

/-- V-A3. -/
theorem test_arbstart_both_cursor_low :
    after (exec .arbstart (asked true true 0#8))
      (fun t => (t.genHalf, t.pending0, t.pending1, t.genIdx, t.genBusy)) =
      some (.half1, true, false, 0#7, true) := by decide +kernel

/-- V-A4. -/
theorem test_arbstart_both_cursor_high :
    after (exec .arbstart (asked true true 200#8))
      (fun t => (t.genHalf, t.pending0, t.pending1)) =
      some (.half0, false, true) := by decide +kernel

/-- V-G4: an odd sum of two voices rounds down. -/
theorem test_genslot_two_voices :
    after (exec .genslot
        (withPhase (withPhase (refill .half0 3#7 0x201#12) 0 0x4085F3CA#32) 9 0x40E147AE#32))
      (fun t => (t.bufRead 3#8, t.phase[0], t.phase[9], t.genIdx, t.genBusy)) =
      some (2322#12, 0x40B29A62#32, 0x41162FC9#32, 4#7, true) := by decide +kernel

/-- V-G9 and V-G11: the last slot of half 1 ends the refill; the phase wraps. -/
theorem test_genslot_last_slot_wraps :
    after (exec .genslot (withPhase (refill .half1 127#7 0x200#12) 9 0x437FFFFF#32))
      (fun t => (t.buf, t.phase[9], t.genIdx, t.genBusy)) =
      some ([(255, 1997#12)], 0x40162F80#32, 0#7, false) := by decide +kernel

/-- V-P1 to V-P8. -/
theorem test_advancePhase_vectors :
    advancePhase defaultConfig 0x437F0000#32 0x40000000#32 = 0x3F800000#32 ∧
    advancePhase defaultConfig 0x437FFFFF#32 0x37000000#32 = 0x00000000#32 ∧
    advancePhase defaultConfig 0x437FFFFF#32 0x40162FC9#32 = 0x40162F80#32 ∧
    advancePhase defaultConfig 0x437E0000#32 0x40000000#32 = 0x00000000#32 ∧
    advancePhase defaultConfig 0x00000000#32 0x4028942E#32 = 0x4028942E#32 ∧
    advancePhase defaultConfig 0x437F8000#32 0x3FB29A62#32 = 0x3F653400#32 ∧
    advancePhase defaultConfig 0x42C80000#32 0x00000000#32 = 0x42C80000#32 ∧
    advancePhase defaultConfig 0x437FFFFF#32 0x437FFFFF#32 = 0x437FFFFE#32 := by decide +kernel

/-! ## Witnesses -/

/-- A state whose buffer lists nothing is good under a legal configuration with legal phases. -/
theorem good_of_empty {s : State} (hc : configLegal s.cfg = true)
    (hp : ∀ j : Voice, inCycle s.phase[j] = true) (hb : s.buf = []) : s.Good :=
  ⟨hc, hp, by rw [hb]; rfl, fun a v h => by rw [hb] at h; cases h⟩

theorem legal_default : configLegal defaultConfig = true := by decide +kernel

theorem phases_reset : ∀ j : Voice, inCycle State.reset.phase[j] = true := by decide +kernel

theorem good_asked (p0 p1 : Bool) (c : Slot) : (asked p0 p1 c).Good :=
  good_of_empty legal_default phases_reset rfl

theorem good_placed (e : Event) : (placed e).Good :=
  good_of_empty legal_default phases_reset rfl

theorem step_of_placed (e : Event) : step (placed e) = State.reset.take e :=
  step_placed (s := placed e) legal_default rfl

theorem witness_HostPortDecodesByFields :
    0x0FFF / 4096 = 0 ∧
    (0x1BFF / 4096 = 1 ∧ 0x1B01 / 2 % 128 = 0 ∧ 0x1B01 / 256 % 16 ≤ 11) ∧
    (0x1000 / 4096 = 1 ∧ 0x1000 / 2 % 128 = 0 ∧ 0x1000 / 256 % 16 ≤ 11) ∧
    (¬ 0x1C00 / 4096 = 0 ∧ ¬ (0x1C00 / 4096 = 1 ∧ 0x1C00 / 2 % 128 = 0 ∧ 0x1C00 / 256 % 16 ≤ 11)) ∧
    (¬ 0x1002 / 4096 = 0 ∧ ¬ (0x1002 / 4096 = 1 ∧ 0x1002 / 2 % 128 = 0 ∧ 0x1002 / 256 % 16 ≤ 11)) := by
  decide

theorem witness_MatchAndMaskOfEachOperation :
    (0x1BFF#16 &&& 0xF0FE#16 ≠ 0x1000#16) ∧
    (0x1B01#16 &&& 0xF0FE#16 = 0x1000#16 ∧ (0x1B01#16).toNat / 256 % 16 ≤ 11) ∧
    (2 ≤ (0x2000#16).toNat / 4096 ∧ (0x7FFF#16).toNat / 4096 ≤ 7) ∧
    11 ≤ (0xB000#16).toNat / 4096 ∧ decodeWord 0x7FFF#16 = none ∧ decodeWord 0xB000#16 = none := by
  decide

theorem witness_DecodeOfEncodeIsIdentity :
    (Instr.setact 11#4 true).wellFormed = true ∧ (Instr.setact 11#4 true).isHost = true ∧
    Instr.genslot.wellFormed = true ∧ Instr.genslot.isHost = false := by decide

theorem witness_EncodeOfDecodeIsIdentity :
    decodeWord 0x0FFF#16 = some (.nop 0xFFF#12) ∧ decodeWord 0x1B00#16 = some (.setact 11#4 false) ∧
    decodeWord 0x9000#16 = some .arbstart := by decide

theorem witness_AssemblerWordsAndRefusals :
    (11 ≤ 11 ∧ 1 ≤ 1) ∧ ¬ (12 ≤ 11 ∧ 1 ≤ 1) ∧ ¬ (0 ≤ 11 ∧ 2 ≤ 1) := by decide

theorem witness_StepRunsTheDecodedOperation :
    configLegal State.reset.cfg = true ∧ State.reset.rst = false ∧
    (placed (.hostCmd 0x1901#16)).queue = [.hostCmd 0x1901#16] ∧
    decodeHost 0x1901#16 = .op (.setact 9#4 true) ∧
    (placed (.agentStep 0x8000#16)).queue = [.agentStep 0x8000#16] ∧
    decodeEvent 0x8000#16 = .ok .tick ∧ decodeTableWord 16 0xA000 = some .genslot := by
  decide +kernel

theorem witness_IgnoredHostWordsActAsNop :
    configLegal (placed (.hostCmd 0x2000#16)).cfg = true ∧ 2 ≤ (0x2000#16).toNat / 4096 ∧
    ((0x1C00#16).toNat / 4096 = 1 ∧ 12 ≤ (0x1C00#16).toNat / 256 % 16) ∧
    ((0x1002#16).toNat / 4096 = 1 ∧ (0x1002#16).toNat / 2 % 128 ≠ 0) := by decide +kernel

theorem witness_BadEventWordsRefusedHostWordsNever :
    (placed (.agentStep 0x8001#16)).queue = [.agentStep 0x8001#16] ∧
    8 ≤ (0x8001#16).toNat / 4096 ∧ (0x8001#16).toNat % 4096 ≠ 0 ∧
    11 ≤ (0xB000#16).toNat / 4096 := by decide +kernel

theorem witness_LegalPhaseSteps :
    stepLegal (withStep 9 0x437FFFFF#32).cfg 9 = true ∧
    stepLegal (withStep 9 0x43800000#32).cfg 9 = false := by decide +kernel

theorem witness_IllFormedConfigurationIsRefused :
    (¬ (withStep 9 0x43800000#32).cfg.phaseStep[9].toNat < 0x43800000 ∧
      ∀ k : Voice, k < 9 → (withStep 9 0x43800000#32).cfg.phaseStep[k].toNat < 0x43800000) ∧
    (∀ j : Voice, (withStep 9 0x437FFFFF#32).cfg.phaseStep[j].toNat < 0x43800000) := by
  decide +kernel

theorem witness_HeldResetIgnoresInputs :
    configLegal (held (.clkEdge false)).cfg = true ∧ (held (.clkEdge false)).rst = true ∧
    (held (.clkEdge false)).heldInReset ∧
    (held (.hostCmd 0x1901#16)).queue = [.hostCmd 0x1901#16] ∧
    (held (.agentStep 0x8000#16)).queue = [.agentStep 0x8000#16] ∧
    (held (.agentStep 0x9000#16)).queue = [.agentStep 0x9000#16] ∧
    (held (.agentStep 0xA000#16)).queue = [.agentStep 0xA000#16] :=
  ⟨by decide +kernel, rfl, fun _ => rfl, rfl, rfl, rfl, rfl⟩

theorem witness_ResetEdgeLeavesTheResetState :
    configLegal (placed (.clkEdge true)).cfg = true ∧
    (placed (.clkEdge true)).queue = [.clkEdge true] := by decide +kernel

theorem witness_StrobeMarksTheCycleAfterATick :
    (∃ t, exec .tick State.reset = .next t) ∧
    (∃ t, exec .arbstart (asked true false 128#8) = .next t) ∧
    (placed (.clkEdge false)).queue = [.clkEdge false] :=
  ⟨⟨_, rfl⟩, ⟨_, execArbstart_enabled rfl⟩, rfl⟩

theorem witness_NopChangesNothing : (0x0FFF#16).toNat / 4096 = 0 := by decide

theorem witness_SetactWritesOneFlag : (0#4).toNat ≤ 11 ∧ (11#4).toNat ≤ 11 := by decide

theorem witness_SetactOfNoVoiceChangesNothing : 12 ≤ (12#4).toNat ∧ 12 ≤ (15#4).toNat := by decide

theorem witness_SetactStepsOverwriteOrCommute :
    (3#4).toNat ≤ 11 ∧ (5#4).toNat ≤ 11 ∧ (3#4 ≠ 5#4) := by decide

theorem witness_ArbstartStartsARefill :
    (asked true true 127#8).genBusy = false ∧ (asked true true 127#8).pending0 = true ∧
    (asked true true 128#8).pending1 = true ∧ (asked true false 0#8).pending1 = false ∧
    (asked false true 0#8).pending0 = false ∧ (asked false true 0#8).pending1 = true := by
  decide +kernel

theorem witness_StepsNotEnabledAreRejected :
    State.reset.genBusy = false ∧ State.reset.pending0 = false ∧ State.reset.pending1 = false ∧
    (refill .half0 0#7 0#12).genBusy = true := by decide +kernel

theorem witness_Genslot_none_active :
    (refill .half0 5#7 0#12).genBusy = true ∧ configLegal (refill .half0 5#7 0#12).cfg = true ∧
    (activeSet (refill .half0 5#7 0#12).act).card = 0 := by decide +kernel

/-- The hypotheses of the GENSLOT statements, with one, two and twelve voices active. -/
theorem witness_Genslot_active :
    (refill .half1 127#7 0xFFF#12).genBusy = true ∧
    configLegal (refill .half1 127#7 0xFFF#12).cfg = true ∧
    (∀ j ∈ activeSet (refill .half1 127#7 0xFFF#12).act,
      inCycle (refill .half1 127#7 0xFFF#12).phase[j] = true) ∧
    (activeSet 0x200#12).card = 1 ∧ (activeSet 0x201#12).card = 2 ∧
    (activeSet 0xFFF#12).card = 12 := by decide +kernel

/-- A sum below 256, and one that reaches 256 and wraps (V-P2). -/
theorem witness_GenslotAdvancesActivePhases :
    f32Units (f32Add 0x00000000#32 0x40162FC9#32) < 256 * 2 ^ 149 ∧
    256 * 2 ^ 149 ≤ f32Units (f32Add 0x437FFFFF#32 0x40162FC9#32) := by decide +kernel

theorem witness_GenslotNeverWritesAbove4094 :
    ∃ t, exec .genslot (refill .half0 0#7 0xFFF#12) = .next t :=
  ⟨_, execGenslot_ready rfl (by decide +kernel) (by decide +kernel)⟩

theorem witness_GenslotStopsWithoutATableWord :
    (9 : Voice) ∈ activeSet (refill .half0 0#7 0x200#12).act ∧
    ¬ (withPhase (refill .half0 0#7 0x200#12) 9 0x43800000#32).phase[9].toNat < 0x43800000 ∧
    (∀ k ∈ activeSet (refill .half0 0#7 0x200#12).act, k < 9 →
      (withPhase (refill .half0 0#7 0x200#12) 9 0x43800000#32).phase[k].toNat < 0x43800000) := by
  decide +kernel

theorem witness_AdditionRoundsToNearestEven :
    f32Finite 0x437FFFFF#32 = true ∧ f32Finite 0x37000000#32 = true ∧
    (f32Units 0x437FFFFF#32 + f32Units 0x37000000#32).natAbs ≤ f32Magnitude 0x7F7FFFFF#32 ∧
    f32Finite 0x7F7FFFFF#32 = true := by decide +kernel

theorem witness_FloorOfAPhaseIsATableAddress :
    inCycle 0x00000000#32 = true ∧ inCycle 0x437FFFFF#32 = true ∧
    f32Floor 0x437FFFFF#32 = 255 := by decide +kernel

theorem witness_WrapSubtractionIsExact :
    f32Finite 0x43800000#32 = true ∧ 256 * 2 ^ 149 ≤ f32Units 0x43800000#32 ∧
    f32Units 0x43FFFFFF#32 < 512 * 2 ^ 149 := by decide +kernel

theorem witness_AdvanceKeepsAPhaseInCycle :
    inCycle 0x437FFFFF#32 = true ∧ inCycle 0x4028942E#32 = true := by decide +kernel

theorem witness_IntegerStepReturnsToZero :
    inCycle 0x40000000#32 = true ∧ 2 ∣ 256 ∧ f32Units 0x40000000#32 = 2 * 2 ^ 149 := by
  decide +kernel

theorem witness_DefaultStepsAreNearest : f32Finite 0x40162FC9#32 = true := by decide

theorem witness_TableStatements : (255 : Nat) < 256 := by decide

theorem witness_GoodIsKeptByEveryStep :
    ∃ s t : State, s.Good ∧ step s = .next t ∧ t.act = 0x200#12 :=
  ⟨placed (.hostCmd 0x1901#16), _, good_placed _, (step_of_placed _).trans rfl, by decide +kernel⟩

theorem witness_GoodStatesFaultOnlyWhenNotEnabled :
    ∃ s : State, s.Good ∧ step s = .fault (.notEnabled .genslot) :=
  ⟨placed (.agentStep 0xA000#16), good_placed _, (step_of_placed _).trans rfl⟩

/-- The hypotheses of the statements about the run of `step`. -/
theorem witness_FreeRunNeverStops :
    State.reset.Good ∧ State.reset.queue = [] ∧ State.reset.heldInReset :=
  ⟨good_of_empty (by decide +kernel) (by decide +kernel) rfl, rfl, fun h => by cases h⟩

/-- A run of `step` in which a request is pending, and one in which a refill runs. -/
theorem witness_FreeRun_at_work :
    (asked true false 128#8).Good ∧ (asked true false 128#8).queue = [] ∧
    (asked true false 128#8).heldInReset ∧ ((asked true false 128#8).run 0).pending .half0 = true ∧
    (refill .half0 5#7 0x200#12).Good ∧ (refill .half0 5#7 0x200#12).queue = [] ∧
    (refill .half0 5#7 0x200#12).heldInReset ∧
    ((refill .half0 5#7 0x200#12).run 0).genBusy = true :=
  ⟨good_asked _ _ _, rfl, (fun h => by cases h), rfl,
    good_of_empty legal_default phases_reset rfl, rfl, (fun h => by cases h), rfl⟩

/-- The tick that enters half 1 with its refill done. -/
theorem witness_QuietHalfIsKeptByEveryStep :
    ∃ s t : State, s.quietHalf ∧ step s = .next t ∧ t.cursor = 128#8 ∧ t.pending0 = true :=
  ⟨{ placed (.agentStep 0x8000#16) with cursor := 127#8 }, _, fun _ => rfl,
    (step_placed (by decide +kernel) rfl).trans rfl, by decide, by decide⟩

theorem witness_HalfBeingReadIsNotWritten :
    ∃ s t : State, s.quietHalf ∧ s.deadlineMiss = false ∧ s.cursor = 200#8 ∧
      exec .genslot s = .next t :=
  ⟨{ refill .half0 0#7 0xFFF#12 with cursor := 200#8 }, _, fun _ => rfl, rfl, rfl,
    execGenslot_ready rfl (by decide +kernel) (by decide +kernel)⟩

theorem firstRevolution_placed (e : Event) : (placed e).FirstRevolution :=
  ⟨rfl, fun _ => ⟨rfl, rfl, rfl, rfl⟩, fun _ => ⟨rfl, rfl, fun _ _ => rfl⟩, fun k _ h => by cases h⟩

theorem witness_FirstRevolutionIsKeptByEveryStep :
    ∃ s t : State, s.FirstRevolution ∧ step s = .next t ∧ t.out.length = 1 :=
  ⟨placed (.agentStep 0x8000#16), _, firstRevolution_placed _, (step_of_placed _).trans rfl, rfl⟩

theorem witness_HeldInResetIsKeptByEveryStep :
    ∃ s t : State, s.rst = true ∧ s.heldInReset ∧ step s = .next t :=
  ⟨held (.hostCmd 0x1901#16), _, rfl, fun _ => rfl, (step_placed (by decide +kernel) rfl).trans rfl⟩

theorem witness_DeadlineMissIsSticky :
    ∃ s t : State, step s = .next t ∧ s.deadlineMiss = true ∧ s.nextEvent ≠ .clkEdge true :=
  ⟨{ placed (.clkEdge false) with deadlineMiss := true }, _,
    (step_placed (by decide +kernel) rfl).trans rfl, rfl, by decide⟩

theorem witness_ObservationsAreReadByNoStep :
    ∃ s u t : State, s ≠ u ∧ s.withoutObservations = u.withoutObservations ∧ step s = .next t :=
  ⟨placed (.clkEdge false), { placed (.clkEdge false) with deadlineMiss := true }, _,
    fun h => Bool.false_ne_true (congrArg State.deadlineMiss h), rfl, (step_of_placed _).trans rfl⟩

theorem witness_ObservationsAreReadByNoStep_stops :
    step (placed (.agentStep 0x9000#16)) = .fault (.notEnabled .arbstart) ∧
    step (placed (.agentStep 0xB000#16)) = .refused (.badEventWord 0xB000#16) :=
  ⟨(step_of_placed _).trans rfl, (step_of_placed _).trans rfl⟩

theorem witness_EachRegisterHasItsWriters :
    (∃ t, exec .tick State.reset = .next t) ∧
    (∃ t, exec (.setact 9#4 true) State.reset = .next t) ∧
    (∃ t, exec .arbstart (asked true false 128#8) = .next t) ∧
    (∃ t, exec .genslot (refill .half0 0#7 0xFFF#12) = .next t) :=
  ⟨⟨_, rfl⟩, ⟨_, rfl⟩, ⟨_, execArbstart_enabled rfl⟩, witness_GenslotNeverWritesAbove4094⟩

theorem witness_HostWordsTouchOnlyTheFlags :
    configLegal (placed (.hostCmd 0xFFFF#16)).cfg = true ∧
    (placed (.hostCmd 0xFFFF#16)).queue = [.hostCmd 0xFFFF#16] := by decide +kernel

/-- The hypotheses of the statements about a whole refill: none, and one voice active. -/
theorem witness_Refill :
    (asked true false 128#8).Good ∧ (asked true false 128#8).rst = false ∧
    (asked true false 128#8).arbEnabled = true ∧ activeSet (asked true false 128#8).act = ∅ ∧
    activeSet 0x200#12 = {9} ∧
    ({ asked true false 128#8 with act := 0x200#12 } : State).Good :=
  ⟨good_asked _ _ _, rfl, rfl, by decide +kernel, by decide +kernel,
    good_of_empty (by decide +kernel) (by decide +kernel) rfl⟩

/-- A clock edge in a running block, and one that releases the reset. -/
theorem witness_ClockEdgeOnlyEndsTheStrobe :
    configLegal (placed (.clkEdge false)).cfg = true ∧
    (placed (.clkEdge false)).queue = [.clkEdge false] ∧ (placed (.clkEdge false)).rst = false ∧
    (held (.clkEdge false)).queue = [.clkEdge false] ∧ (held (.clkEdge false)).rst = true := by
  decide +kernel

/-- `n + 2` slots, the host, the sample clock and a clock edge among them. -/
def amongOthers (n : Nat) : List Event :=
  [.hostCmd 0x1901#16, eventOf .genslot, .agentStep 0x8000#16, .clkEdge false, eventOf .genslot,
    .hostCmd 0x0ABC#16] ++ List.replicate n (eventOf .genslot)

/-- A silent counterpart: its host word turns voice 9 off. -/
def amongOthersSilent (n : Nat) : List Event :=
  [.hostCmd 0x1900#16, eventOf .genslot, .agentStep 0x8000#16, .clkEdge false] ++
    List.replicate n (eventOf .genslot)

theorem keepsFlags_agentStep (A : BitVec 12) (w : Word) : KeepsFlags A (.agentStep w) :=
  fun _ _ _ h => by cases h

theorem keepsFlags_clkEdge (A : BitVec 12) (b : Bool) : KeepsFlags A (.clkEdge b) :=
  fun _ _ _ h => by cases h

/-- A host word that writes a value the flag has. -/
theorem keepsFlags_setact {A : BitVec 12} {w : Word} {n : BitVec 4} {v : Bool}
    (hd : decodeHost w = .op (.setact n v))
    (hA : ∀ j : Voice, j.val = n.toNat → isActive A j = v) : KeepsFlags A (.hostCmd w) := by
  intro w' n' v' h hd'
  cases h
  rw [hd] at hd'
  cases hd'
  exact hA

theorem keepsFlags_nop {A : BitVec 12} {w : Word} {low : BitVec 12}
    (hd : decodeHost w = .op (.nop low)) : KeepsFlags A (.hostCmd w) := by
  intro w' n' v' h hd'
  cases h
  rw [hd] at hd'
  cases hd'

theorem keepsFlags_amongOthers (n : Nat) : ∀ e ∈ amongOthers n, KeepsFlags 0x200#12 e := by
  intro e he
  simp only [amongOthers, List.cons_append, List.nil_append, List.mem_cons, List.mem_replicate] at he
  rcases he with rfl | rfl | rfl | rfl | rfl | rfl | ⟨-, rfl⟩
  · exact keepsFlags_setact (n := 9#4) (v := true) (by decide) (by decide)
  · exact keepsFlags_agentStep _ _
  · exact keepsFlags_agentStep _ _
  · exact keepsFlags_clkEdge _ _
  · exact keepsFlags_agentStep _ _
  · exact keepsFlags_nop (low := 0xABC#12) (by decide)
  · exact keepsFlags_agentStep _ _

theorem keepsFlags_amongOthersSilent (n : Nat) : ∀ e ∈ amongOthersSilent n, KeepsFlags 0#12 e := by
  intro e he
  simp only [amongOthersSilent, List.cons_append, List.nil_append, List.mem_cons,
    List.mem_replicate] at he
  rcases he with rfl | rfl | rfl | rfl | ⟨-, rfl⟩
  · exact keepsFlags_setact (n := 9#4) (v := false) (by decide) (by decide)
  · exact keepsFlags_agentStep _ _
  · exact keepsFlags_agentStep _ _
  · exact keepsFlags_clkEdge _ _
  · exact keepsFlags_agentStep _ _

/-- No slot yet, a part of a refill, and a whole one. -/
theorem witness_RefillWritesItsSlotsInOrder :
    (asked true false 128#8).Good ∧ (asked true false 128#8).rst = false ∧
    (asked true false 128#8).arbEnabled = true ∧
    SlotsAmongOthers 0 [.agentStep 0x8000#16, .clkEdge false] ∧
    SlotsAmongOthers 2 (amongOthers 0) ∧ SlotsAmongOthers 128 (amongOthers 126) :=
  ⟨good_asked _ _ _, rfl, rfl, by unfold SlotsAmongOthers; decide +kernel,
    by unfold SlotsAmongOthers; decide +kernel, by unfold SlotsAmongOthers; decide +kernel⟩

theorem witness_SilentSlotsAreMidScaleAmongOtherSteps :
    (asked true false 128#8).Good ∧ activeSet (asked true false 128#8).act = ∅ ∧
    SlotsAmongOthers 128 (amongOthersSilent 127) ∧
    ∀ e ∈ amongOthersSilent 127, KeepsFlags (asked true false 128#8).act e :=
  ⟨good_asked _ _ _, by decide +kernel, by unfold SlotsAmongOthers; decide +kernel,
    keepsFlags_amongOthersSilent 127⟩

theorem witness_OneVoiceReproducesTheTableAmongOtherSteps :
    ({ asked true false 128#8 with act := 0x200#12 } : State).Good ∧
    ({ asked true false 128#8 with act := 0x200#12 } : State).arbEnabled = true ∧
    activeSet 0x200#12 = {9} ∧ SlotsAmongOthers 128 (amongOthers 126) ∧
    ∀ e ∈ amongOthers 126, KeepsFlags 0x200#12 e :=
  ⟨good_of_empty (by decide +kernel) (by decide +kernel) rfl, rfl, by decide +kernel,
    by unfold SlotsAmongOthers; decide +kernel, keepsFlags_amongOthers 126⟩

/-- Voice 9 alone, with the step 2.0, in a refill. -/
def integerStep : State := { refill .half0 0#7 0x200#12 with cfg := (withStep 9 0x40000000#32).cfg }

theorem good_integerStep : integerStep.Good :=
  good_of_empty (by decide +kernel) (by decide +kernel) rfl

/-- A tick and a slot: one of the `256 / 2` slots before the phase returns. -/
theorem witness_IntegerStepVoiceReadsEveryDthWord :
    integerStep.Good ∧ integerStep.rst = false ∧ activeSet integerStep.act = {9} ∧ 2 ∣ 256 ∧
    f32Value integerStep.cfg.phaseStep[9] = ((2 : Nat) : ℚ) ∧
    integerStep.phase[9] = 0x00000000#32 ∧
    (∀ e ∈ [Event.agentStep 0x8000#16, eventOf .genslot],
      KeepsFlags integerStep.act e ∧ e ≠ .clkEdge true) ∧
    ∃ t, integerStep.takeAll [.agentStep 0x8000#16, eventOf .genslot] = .next t ∧
      t.genBusy = true := by
  refine ⟨good_integerStep, rfl, by decide +kernel, by decide, ?_, by decide +kernel, ?_,
    integerStep.drain.genSlot, ?_, by decide +kernel⟩
  · have h : f32Units integerStep.cfg.phaseStep[9] = 2 * 2 ^ 149 := by decide +kernel
    rw [f32Value, h]
    norm_num
  · intro e he
    simp only [List.mem_cons, List.not_mem_nil, or_false] at he
    rcases he with rfl | rfl
    · exact ⟨keepsFlags_agentStep _ _, by decide⟩
    · exact ⟨keepsFlags_agentStep _ _, by decide⟩
  · have h1 : integerStep.take (.agentStep 0x8000#16) = .next integerStep.drain :=
      State.take_eventOf (i := .tick) rfl rfl
    have h2 : integerStep.drain.take (eventOf .genslot) = .next integerStep.drain.genSlot :=
      (State.take_eventOf rfl rfl).trans
        (execGenslot_ready rfl (by decide +kernel) (by decide +kernel))
    simp only [State.takeAll, h1, h2]

/-- The last slot of a refill, then a clock that goes on without end. -/
def lastSlot : Nat → Event
  | 0 => .agentStep 0xA000#16
  | _ + 1 => .clkEdge false

/-- The states of that execution. -/
def lastSlotRun : Nat → State
  | 0 => refill .half0 127#7 0#12
  | _ + 1 => (refill .half0 127#7 0#12).genSlot

theorem witness_FairGeneratorEndsEveryRefill :
    Execution lastSlot lastSlotRun ∧ (lastSlotRun 0).genBusy = true := by
  refine ⟨⟨⟨by decide +kernel, fun n => ?_⟩, fun n => ⟨n + 1, by omega, .inl rfl⟩,
    fun n => ⟨n + 1, by omega, .inl rfl⟩⟩, rfl⟩
  cases n with
  | zero => exact execGenslot_ready (s := refill .half0 127#7 0#12) rfl (by decide +kernel) rfl
  | succ n => rfl

/-- A pending request served at once, then a clock that goes on without end. -/
def servedAtOnce : Nat → Event
  | 0 => .agentStep 0x9000#16
  | _ + 1 => .clkEdge false

/-- The states of that order of events. -/
def servedRun : Nat → State
  | 0 => asked true false 128#8
  | _ + 1 => (asked true false 128#8).serve .half0

theorem witness_FairArbiterAnswersARequest :
    EventOrder servedAtOnce servedRun ∧ ArbiterFair servedAtOnce servedRun ∧
    (servedRun 0).pending .half0 = true := by
  refine ⟨⟨by decide +kernel, fun n => ?_⟩, fun n => ⟨n + 1, by omega, .inl rfl⟩, rfl⟩
  cases n with
  | zero => exact execArbstart_enabled (s := asked true false 128#8) rfl
  | succ n => rfl

end Sys2Proof.Tests
end

section
/-!
SUPPORT. Binary32 (00_scope.md R12): what a pattern's fields are as numbers, that no value lies between
neighbouring significands, that `rne32` rounds to the nearest value, and the statements that follow for
`+32`, `floor` and the default phase steps.
-/
namespace Sys2Proof.Machine

/-! ## The fields of a pattern as numbers -/

theorem f32Exponent_eq (b : F32) : f32Exponent b = b.toNat / 2 ^ 23 % 2 ^ 8 := by
  simp [f32Exponent, Nat.shiftRight_eq_div_pow]

theorem f32Fraction_eq (b : F32) : f32Fraction b = b.toNat % 2 ^ 23 := by
  simp [f32Fraction]

theorem f32Negative_eq (b : F32) : f32Negative b = decide (2 ^ 31 ≤ b.toNat) :=
  (BitVec.msb_eq_getLsbD_last b).symm.trans (BitVec.msb_eq_decide b)

theorem f32Units_of_nonneg {b : F32} (h : f32Negative b = false) :
    f32Units b = f32Magnitude b := by
  simp [f32Units, h]

theorem natAbs_f32Units (b : F32) : (f32Units b).natAbs = f32Magnitude b := by
  cases h : f32Negative b <;> simp [f32Units, h]

/-- A finite pattern of a normal value, by its significand. -/
theorem f32Magnitude_of_normal {b : F32} (h : f32Exponent b ≠ 0) :
    f32Magnitude b = (2 ^ 23 + f32Fraction b) * 2 ^ (f32Exponent b - 1) :=
  if_neg h

/-- Every magnitude is a significand of at most 24 bits, shifted. -/
theorem f32Magnitude_eq_mul_pow (b : F32) :
    ∃ s k : Nat, s < 2 ^ 24 ∧ f32Magnitude b = s * 2 ^ k := by
  have hf : f32Fraction b < 2 ^ 23 := by rw [f32Fraction_eq]; omega
  by_cases he : f32Exponent b = 0
  · exact ⟨f32Fraction b, 0, by omega, by simp [f32Magnitude, he]⟩
  · exact ⟨2 ^ 23 + f32Fraction b, _, by omega, f32Magnitude_of_normal he⟩

/-- Writing the significand `q`, hidden bit included, over the exponent field `d` gives the
magnitude `q * 2 ^ d`; a significand of `2 ^ 24` carries into the exponent. -/
theorem f32Magnitude_of_toNat {b : F32} {d q : Nat} (hb : b.toNat % 2 ^ 31 = d * 2 ^ 23 + q)
    (hd : d = 0 ∨ 2 ^ 23 ≤ q) (hq : q ≤ 2 ^ 24) : f32Magnitude b = q * 2 ^ d := by
  have he := f32Exponent_eq b
  have hf := f32Fraction_eq b
  rcases Nat.lt_or_ge q (2 ^ 23) with hsub | hnorm
  · obtain rfl : d = 0 := by omega
    have he0 : f32Exponent b = 0 := by omega
    have hfq : f32Fraction b = q := by omega
    simp [f32Magnitude, he0, hfq]
  · rcases Nat.lt_or_eq_of_le hq with hlt | rfl
    · have he1 : f32Exponent b = d + 1 := by omega
      have hfq : 2 ^ 23 + f32Fraction b = q := by omega
      rw [f32Magnitude_of_normal (by omega), he1, hfq, Nat.add_sub_cancel]
    · have he2 : f32Exponent b = d + 2 := by omega
      have hf0 : f32Fraction b = 0 := by omega
      rw [f32Magnitude_of_normal (by omega), he2, hf0, Nat.add_sub_assoc (by decide), Nat.pow_add]
      omega

theorem f32Finite_of_toNat {b : F32} (h : b.toNat % 2 ^ 31 < f32InfinityBits) :
    f32Finite b = true := by
  have he := f32Exponent_eq b
  simp only [f32InfinityBits] at h
  exact decide_eq_true (by omega)

/-! ## Gaps: no value lies strictly between neighbouring significands -/

theorem f32Magnitude_gap (b : F32) {q d : Nat} (hq : d = 0 ∨ 2 ^ 23 ≤ q) :
    f32Magnitude b ≤ q * 2 ^ d ∨ (q + 1) * 2 ^ d ≤ f32Magnitude b := by
  obtain ⟨s, k, hs, hm⟩ := f32Magnitude_eq_mul_pow b
  rw [hm]
  rcases Nat.lt_or_ge k d with hkd | hdk
  · left
    calc s * 2 ^ k ≤ 2 ^ 24 * 2 ^ k := Nat.mul_le_mul_right _ hs.le
      _ = 2 ^ 23 * 2 ^ (k + 1) := by ring
      _ ≤ q * 2 ^ d := Nat.mul_le_mul (by omega) (Nat.pow_le_pow_right (by decide) hkd)
  · obtain ⟨i, rfl⟩ := Nat.exists_eq_add_of_le hdk
    rw [Nat.pow_add, Nat.mul_left_comm, Nat.mul_comm (2 ^ d)]
    exact (Nat.lt_or_ge q (s * 2 ^ i)).symm.imp (Nat.mul_le_mul_right _) (Nat.mul_le_mul_right _)

/-- The same for an integer that is a value or the negative of one. -/
theorem gap_of_natAbs_eq {b : F32} {u : Int} (hu : u.natAbs = f32Magnitude b) {q d : Nat}
    (hq : d = 0 ∨ 2 ^ 23 ≤ q) :
    u ≤ ((q * 2 ^ d : Nat) : Int) ∨ (((q + 1) * 2 ^ d : Nat) : Int) ≤ u := by
  have := f32Magnitude_gap b hq
  omega

/-! ## `rne32` rounds to the nearest value, ties to an even significand -/

theorem lt_mul_two_pow_dropBits (n : Nat) : n < 2 ^ 24 * 2 ^ dropBits n := by
  calc n < 2 ^ (n.log2 + 1) := Nat.lt_log2_self
    _ ≤ 2 ^ (24 + dropBits n) := Nat.pow_le_pow_right (by decide) (by unfold dropBits; omega)
    _ = 2 ^ 24 * 2 ^ dropBits n := Nat.pow_add ..

/-- Where bits are dropped, the significand kept has all its 24 bits. -/
theorem dropBits_eq_zero_or (n : Nat) : dropBits n = 0 ∨ 2 ^ 23 ≤ n / 2 ^ dropBits n := by
  by_cases hd : dropBits n = 0
  · exact .inl hd
  · right
    rw [Nat.le_div_iff_mul_le (by positivity), ← Nat.pow_add]
    have hlog : 23 + dropBits n = n.log2 := by unfold dropBits at hd ⊢; omega
    rw [hlog]
    exact Nat.log2_self_le fun h => hd (by rw [h]; decide)

/-- The two directions of rounding: down to the quotient, or up to the next significand. -/
theorem nearestEven_cases (n d : Nat) :
    (nearestEven n d = n / 2 ^ d ∧ 2 * (n % 2 ^ d) ≤ 2 ^ d ∧
      (2 * (n % 2 ^ d) = 2 ^ d → n / 2 ^ d % 2 = 0)) ∨
    (nearestEven n d = n / 2 ^ d + 1 ∧ 2 ^ d ≤ 2 * (n % 2 ^ d) ∧
      (2 * (n % 2 ^ d) = 2 ^ d → n / 2 ^ d % 2 = 1)) := by
  simp only [nearestEven]
  split <;> omega

theorem div_le_nearestEven (n d : Nat) : n / 2 ^ d ≤ nearestEven n d := by
  rcases nearestEven_cases n d with ⟨h, -⟩ | ⟨h, -⟩ <;> omega

theorem nearestEven_le {n d k : Nat} (h : n ≤ k * 2 ^ d) : nearestEven n d ≤ k := by
  have hpos : 0 < 2 ^ d := by positivity
  have hq : n / 2 ^ d ≤ k := Nat.div_le_of_le_mul (by rwa [Nat.mul_comm])
  rcases nearestEven_cases n d with ⟨hdown, -⟩ | ⟨hup, hhalf, -⟩
  · rwa [hdown]
  · rw [hup]
    refine Nat.lt_of_le_of_ne hq fun heq => ?_
    have hn := Nat.div_add_mod' n (2 ^ d)
    rw [heq] at hn
    omega

/-- Among the integers outside the gap around `n` at `d` dropped bits, the significand kept is
nearest to `n`, and it is even where another is as near. -/
theorem nearestEven_nearest (n d : Nat) {u : Int}
    (hu : u ≤ ((n / 2 ^ d * 2 ^ d : Nat) : Int) ∨ (((n / 2 ^ d + 1) * 2 ^ d : Nat) : Int) ≤ u) :
    (((nearestEven n d * 2 ^ d : Nat) : Int) - n).natAbs ≤ (u - n).natAbs ∧
    ((((nearestEven n d * 2 ^ d : Nat) : Int) - n).natAbs = (u - n).natAbs →
      u ≠ ((nearestEven n d * 2 ^ d : Nat) : Int) → nearestEven n d % 2 = 0) := by
  have hn := Nat.div_add_mod' n (2 ^ d)
  have hr := Nat.mod_lt n (show 2 ^ d > 0 by positivity)
  rcases nearestEven_cases n d with ⟨hdown, hhalf, htie⟩ | ⟨hup, hhalf, htie⟩
  · rw [hdown]
    rw [Nat.add_mul, Nat.one_mul] at hu
    generalize n / 2 ^ d * 2 ^ d = below at *
    omega
  · rw [hup]
    rw [Nat.add_mul, Nat.one_mul] at *
    generalize n / 2 ^ d * 2 ^ d = below at *
    omega

/-- The largest finite magnitude. -/
def f32MaxMagnitude : Nat := (2 ^ 24 - 1) * 2 ^ 253

theorem f32Magnitude_max : f32Magnitude 0x7F7FFFFF#32 = f32MaxMagnitude := by decide +kernel

theorem f32MaxMagnitude_lt : f32MaxMagnitude < 2 ^ (24 + 253) := by
  rw [Nat.pow_add]
  decide

theorem roundMagnitude_finite {n : Nat} (h : n ≤ f32MaxMagnitude) :
    roundMagnitude n < f32InfinityBits := by
  have hd : dropBits n ≤ 253 := by
    by_cases hn : n = 0
    · subst hn; decide
    · have := (Nat.log2_lt hn).2 (h.trans_lt f32MaxMagnitude_lt)
      unfold dropBits
      omega
  simp only [roundMagnitude, f32InfinityBits]
  rcases Nat.lt_or_eq_of_le hd with hlt | heq
  · have := nearestEven_le (lt_mul_two_pow_dropBits n).le
    omega
  · have := nearestEven_le (d := 253) h
    rw [heq]
    omega

/-- `rne32` below the overflow bound: the result is finite, its value is the significand kept,
shifted back, with the sign of `z`, and the low bit of its pattern is that of the significand. -/
theorem rne32_spec {z : Int} (h : z.natAbs ≤ f32MaxMagnitude) :
    f32Finite (rne32 z) = true ∧
    f32Units (rne32 z) =
      (if z < 0 then -((nearestEven z.natAbs (dropBits z.natAbs) * 2 ^ dropBits z.natAbs : Nat) : Int)
      else ((nearestEven z.natAbs (dropBits z.natAbs) * 2 ^ dropBits z.natAbs : Nat) : Int)) ∧
    (rne32 z).toNat % 2 = nearestEven z.natAbs (dropBits z.natAbs) % 2 := by
  have hfin := roundMagnitude_finite h
  have hinf : f32InfinityBits < 2 ^ 31 := by decide
  have hbits : (rne32 z).toNat =
      if z < 0 then 2 ^ 31 + roundMagnitude z.natAbs else roundMagnitude z.natAbs := by
    simp only [rne32, BitVec.toNat_ofNat, Nat.min_eq_left hfin.le]
    split <;> omega
  have hlow : (rne32 z).toNat % 2 ^ 31 = roundMagnitude z.natAbs := by
    rw [hbits]; split <;> omega
  have hneg : f32Negative (rne32 z) = decide (z < 0) := by
    rw [f32Negative_eq, hbits]; split <;> simp_all; omega
  have hmag := f32Magnitude_of_toNat hlow
    ((dropBits_eq_zero_or _).imp_right fun hq => hq.trans (div_le_nearestEven ..))
    (nearestEven_le (lt_mul_two_pow_dropBits _).le)
  refine ⟨f32Finite_of_toNat (hlow ▸ hfin), ?_, ?_⟩
  · by_cases hz : z < 0 <;> simp [f32Units, hneg, hmag, hz]
  · unfold roundMagnitude at hlow
    omega

/-- R12: no value is nearer to `z` than `rne32 z`, and where one is as near the significand of
`rne32 z` is even. -/
theorem rne32_nearest {z : Int} (h : z.natAbs ≤ f32MaxMagnitude) (b : F32) :
    (f32Units (rne32 z) - z).natAbs ≤ (f32Units b - z).natAbs ∧
    ((f32Units (rne32 z) - z).natAbs = (f32Units b - z).natAbs →
      f32Units b ≠ f32Units (rne32 z) → (rne32 z).toNat % 2 = 0) := by
  obtain ⟨-, hunits, heven⟩ := rne32_spec h
  rw [hunits, heven]
  have hgap : ∀ u : Int, u.natAbs = f32Magnitude b → _ := fun u hu =>
    nearestEven_nearest z.natAbs (dropBits z.natAbs)
      (gap_of_natAbs_eq hu (dropBits_eq_zero_or _))
  by_cases hz : z < 0
  · have := hgap (-f32Units b) (by rw [Int.natAbs_neg, natAbs_f32Units])
    rw [if_pos hz]
    omega
  · have := hgap (f32Units b) (natAbs_f32Units b)
    rw [if_neg hz]
    omega

/-! ## The distance of a value from a number of units -/

theorem abs_intCast_div (z : Int) : |(z : ℚ) / 2 ^ 149| = (z.natAbs : ℚ) / 2 ^ 149 := by
  rw [abs_div, Nat.cast_natAbs, Int.cast_abs, abs_of_pos (show (0 : ℚ) < 2 ^ 149 by positivity)]

theorem abs_f32Value_sub (b : F32) (z : Int) :
    |f32Value b - (z : ℚ) / 2 ^ 149| = ((f32Units b - z).natAbs : ℚ) / 2 ^ 149 := by
  rw [← abs_intCast_div, f32Value, Int.cast_sub, sub_div]

theorem f32Value_add_f32Value (a b : F32) :
    f32Value a + f32Value b = ((f32Units a + f32Units b : Int) : ℚ) / 2 ^ 149 := by
  rw [f32Value, f32Value, Int.cast_add, add_div]

theorem f32Value_inj {a b : F32} : f32Value a = f32Value b ↔ f32Units a = f32Units b := by
  rw [f32Value, f32Value, div_left_inj' (by positivity), Int.cast_inj]

/-- Settles O31: the statement counted in units of 2^-149 is `rne32_nearest`. -/
theorem additionRoundsToNearestEven : Obligations.AdditionRoundsToNearestEven := by
  intro a b _ _ hsum
  have hmax : (f32Units a + f32Units b).natAbs ≤ f32MaxMagnitude := by
    have hunits : f32Units 0x7F7FFFFF#32 = f32MaxMagnitude := by
      rw [f32Units_of_nonneg (by decide), f32Magnitude_max]
    rw [f32Value_add_f32Value, abs_intCast_div, f32Value, hunits,
      div_le_div_iff_of_pos_right (by positivity), Int.cast_natCast, Nat.cast_le] at hsum
    exact hsum
  refine ⟨(rne32_spec hmax).1, fun d _ => ?_⟩
  simp only [f32Value_add_f32Value, abs_f32Value_sub, div_le_div_iff_of_pos_right
    (show (0 : ℚ) < 2 ^ 149 by positivity), div_left_inj' (show (2 : ℚ) ^ 149 ≠ 0 by positivity),
    ne_eq, f32Value_inj, Nat.cast_le, Nat.cast_inj]
  exact rne32_nearest hmax d

/-! ## The integer part of a phase -/

theorem inCycle_iff (b : F32) :
    inCycle b = true ↔
      f32Finite b = true ∧ f32Negative b = false ∧ f32Units b < 256 * unitsOfOne := by
  have h256 : f32Units f32TableSize = 256 * unitsOfOne := by decide +kernel
  simp [inCycle, atLeastTableSize, f32AtLeast, h256, and_assoc]

theorem f32Floor_of_nonneg {b : F32} (h : f32Negative b = false) :
    f32Floor b = f32Magnitude b / unitsOfOne := by
  rw [f32Floor, f32Units_of_nonneg h, ← Int.natCast_ediv, Int.toNat_natCast]

theorem f32Value_of_nonneg {b : F32} (h : f32Negative b = false) :
    f32Value b = (f32Magnitude b : ℚ) / (unitsOfOne : ℚ) := by
  rw [f32Value, f32Units_of_nonneg h, unitsOfOne]
  norm_num

/-- Settles O32: the integer part is the quotient of the magnitude by the units of 1.0. -/
theorem floorOfAPhaseIsATableAddress : Obligations.FloorOfAPhaseIsATableAddress := by
  intro p hp
  obtain ⟨-, hneg, hlt⟩ := (inCycle_iff p).1 hp
  have hpos : 0 < unitsOfOne := by decide
  have hposQ : (0 : ℚ) < unitsOfOne := by exact_mod_cast hpos
  rw [f32Units_of_nonneg hneg] at hlt
  have h256 : f32Magnitude p / unitsOfOne < 256 :=
    (Nat.div_lt_iff_lt_mul hpos).2 (by exact_mod_cast hlt)
  rw [f32Floor_of_nonneg hneg, f32Value_of_nonneg hneg]
  refine ⟨Nat.cast_div_le, ?_, Nat.le_of_lt_succ h256, ?_⟩
  · rw [div_lt_iff₀ hposQ]
    exact_mod_cast (Nat.div_lt_iff_lt_mul hpos).1 (Nat.lt_succ_self _)
  · obtain ⟨v, hv⟩ := tableRead_some h256
    rw [hv, Option.isSome_some]

/-! ## The default phase steps -/

/-- The neighbours of a positive normal value that is no power of two are one unit in the last place
away, so every other value is at least as far off. -/
theorem f32Units_neighbours {b : F32} (hneg : f32Negative b = false) (he : f32Exponent b ≠ 0)
    (hf : f32Fraction b ≠ 0) (d : F32) :
    f32Units d ≤ f32Units b - 2 ^ (f32Exponent b - 1) ∨ f32Units d = f32Units b ∨
      f32Units b + 2 ^ (f32Exponent b - 1) ≤ f32Units d := by
  obtain ⟨f, hfrac⟩ := Nat.exists_eq_add_one_of_ne_zero hf
  have hunits : f32Units b = (((2 ^ 23 + f) * 2 ^ (f32Exponent b - 1) : Nat) : Int) +
      2 ^ (f32Exponent b - 1) := by
    rw [f32Units_of_nonneg hneg, f32Magnitude_of_normal he, hfrac, ← Nat.add_assoc, Nat.add_one_mul]
    push_cast
    rfl
  have hbelow := gap_of_natAbs_eq (natAbs_f32Units d) (q := 2 ^ 23 + f) (d := f32Exponent b - 1)
    (.inr (by omega))
  have habove := gap_of_natAbs_eq (natAbs_f32Units d) (q := 2 ^ 23 + f + 1) (d := f32Exponent b - 1)
    (.inr (by omega))
  simp only [Nat.add_one_mul, Int.natCast_add _ (2 ^ (f32Exponent b - 1)), Int.natCast_pow,
    Nat.cast_ofNat] at hbelow habove
  omega

/-- Such a value is a nearest one to every real within half a unit in its last place. -/
theorem f32Units_nearest_of_half_ulp {b : F32} {x : ℝ} (hneg : f32Negative b = false)
    (he : f32Exponent b ≠ 0) (hf : f32Fraction b ≠ 0)
    (hx : |(f32Units b : ℝ) - x| ≤ 2 ^ (f32Exponent b - 1) / 2) (d : F32) :
    |(f32Units b : ℝ) - x| ≤ |(f32Units d : ℝ) - x| := by
  obtain ⟨hlo, hhi⟩ := abs_le.1 hx
  rcases f32Units_neighbours hneg he hf d with h | h | h
  · have h' : (f32Units d : ℝ) ≤ f32Units b - 2 ^ (f32Exponent b - 1) := by exact_mod_cast h
    exact hx.trans (le_abs.2 (.inr (by linarith)))
  · rw [h]
  · have h' : (f32Units b : ℝ) + 2 ^ (f32Exponent b - 1) ≤ f32Units d := by exact_mod_cast h
    exact hx.trans (le_abs.2 (.inl (by linarith)))

/-- The exact quotient of R26 for voice `j` with R7's parameters, `440 * 256 / 48000 = 176 / 75`. -/
noncomputable def stepQuotient (j : Voice) : ℝ := 176 / 75 * (2 : ℝ) ^ (((j.val : ℝ) - 9) / 12)

theorem stepQuotient_nonneg (j : Voice) : 0 ≤ stepQuotient j := by
  unfold stepQuotient
  positivity

/-- The 12th power of the quotient is rational: the exponent's denominator goes. -/
theorem stepQuotient_pow (j : Voice) :
    75 ^ 12 * 2 ^ 9 * stepQuotient j ^ 12 = 176 ^ 12 * 2 ^ j.val := by
  have hroot : ((2 : ℝ) ^ (((j.val : ℝ) - 9) / 12)) ^ 12 = 2 ^ j.val / 2 ^ 9 := by
    rw [← Real.rpow_mul_natCast (by norm_num)]
    push_cast
    rw [div_mul_cancel₀ _ (by norm_num), Real.rpow_sub (by norm_num)]
    norm_cast
  rw [stepQuotient, mul_pow, hroot]
  ring

/-- Each default step is a positive normal value, no power of two, and the 12th powers of the points
half a unit in the last place off it lie on both sides of the 12th power of the quotient. -/
theorem defaultPhaseStep_brackets : ∀ j : Voice,
    f32Negative defaultPhaseStep[j] = false ∧ f32Exponent defaultPhaseStep[j] ≠ 0 ∧
    f32Fraction defaultPhaseStep[j] ≠ 0 ∧
    75 ^ 12 * 2 ^ 9 *
        (2 * f32Units defaultPhaseStep[j] - 2 ^ (f32Exponent defaultPhaseStep[j] - 1)) ^ 12 ≤
      176 ^ 12 * 2 ^ j.val * (2 ^ 150) ^ 12 ∧
    176 ^ 12 * 2 ^ j.val * (2 ^ 150) ^ 12 ≤ 75 ^ 12 * 2 ^ 9 *
        (2 * f32Units defaultPhaseStep[j] + 2 ^ (f32Exponent defaultPhaseStep[j] - 1)) ^ 12 := by
  decide +kernel

/-- What the 12th powers bracket, the quotient itself is bracketed by. -/
theorem defaultPhaseStep_within_half_ulp (j : Voice) :
    |(f32Units defaultPhaseStep[j] : ℝ) - stepQuotient j * 2 ^ 149| ≤
      2 ^ (f32Exponent defaultPhaseStep[j] - 1) / 2 := by
  obtain ⟨hneg, -, -, hlo, hhi⟩ := defaultPhaseStep_brackets j
  have hq := stepQuotient_nonneg j
  have hscale : 176 ^ 12 * 2 ^ j.val * (2 ^ 150) ^ 12 =
      75 ^ 12 * 2 ^ 9 * (stepQuotient j * 2 ^ 150) ^ 12 := by
    rw [mul_pow, ← mul_assoc, stepQuotient_pow]
  have hunits : (0 : ℝ) ≤ f32Units defaultPhaseStep[j] := by
    rw [f32Units_of_nonneg hneg, Int.cast_natCast]
    positivity
  generalize f32Units defaultPhaseStep[j] = u at *
  generalize f32Exponent defaultPhaseStep[j] - 1 = k at *
  have hloR : 75 ^ 12 * 2 ^ 9 * (2 * (u : ℝ) - 2 ^ k) ^ 12 ≤
      75 ^ 12 * 2 ^ 9 * (stepQuotient j * 2 ^ 150) ^ 12 := hscale ▸ by exact_mod_cast hlo
  have hhiR : 75 ^ 12 * 2 ^ 9 * (stepQuotient j * 2 ^ 150) ^ 12 ≤
      75 ^ 12 * 2 ^ 9 * (2 * (u : ℝ) + 2 ^ k) ^ 12 := hscale ▸ by exact_mod_cast hhi
  rw [mul_le_mul_iff_right₀ (by positivity)] at hloR hhiR
  have hbelow := le_of_pow_le_pow_left₀ (by decide) (by positivity) hloR
  have habove := le_of_pow_le_pow_left₀ (by decide) (by positivity) hhiR
  rw [abs_le]
  constructor <;> linarith

theorem abs_f32Value_sub_real (b : F32) (q : ℝ) :
    |(f32Value b : ℝ) - q| = |(f32Units b : ℝ) - q * 2 ^ 149| / 2 ^ 149 := by
  have hpos : (0 : ℝ) < 2 ^ 149 := by positivity
  rw [f32Value, ← abs_of_pos hpos, ← abs_div, sub_div, abs_of_pos hpos,
    mul_div_cancel_right₀ _ hpos.ne']
  push_cast
  rfl

/-- Settles O36: the quotient lies within half a unit in the last place of each step. -/
theorem defaultStepsAreNearest : Obligations.DefaultStepsAreNearest := by
  intro j d quotient _ hquotient
  have hq : quotient = stepQuotient j := by
    rw [hquotient, stepQuotient]
    simp only [Config.refFreq_eq, Config.refIndex_eq, Config.tableSize_eq, Config.sampleRate_eq]
    push_cast
    ring
  obtain ⟨hneg, he, hf, -⟩ := defaultPhaseStep_brackets j
  rw [hq, abs_f32Value_sub_real, abs_f32Value_sub_real]
  exact div_le_div_of_nonneg_right
    (f32Units_nearest_of_half_ulp hneg he hf (defaultPhaseStep_within_half_ulp j) d) (by positivity)

end Sys2Proof.Machine
end

section
/-!
SUPPORT. The rules about the state: that no step reads the two observations (10_state.md R40), what a
legal phase step is (R28), which operation writes which register (R41), the strobe (R37), and the reset
state (R41).
-/
namespace Sys2Proof.Machine

/-! ## The observations are read by no step -/

/-- The outcome with the two observations of its next state cleared. -/
def eraseObservations : Host.Outcome State Fault Refusal → Host.Outcome State Fault Refusal
  | .next t => .next t.withoutObservations
  | .fault f => .fault f
  | .refused r => .refused r

@[simp] theorem eraseObservations_next (t : State) :
    eraseObservations (.next t) = .next t.withoutObservations := rfl
@[simp] theorem eraseObservations_fault (f : Fault) : eraseObservations (.fault f) = .fault f := rfl
@[simp] theorem eraseObservations_refused (r : Refusal) :
    eraseObservations (.refused r) = .refused r := rfl

theorem eraseObservations_next_congr {t u : State}
    (h : t.withoutObservations = u.withoutObservations) :
    eraseObservations (.next t) = eraseObservations (.next u) :=
  congrArg Host.Outcome.next h

/-- Only a next state erases to a next state. -/
theorem eraseObservations_eq_next {o : Host.Outcome State Fault Refusal} {t : State}
    (h : eraseObservations o = .next t) : ∃ t', o = .next t' ∧ t'.withoutObservations = t := by
  cases o with
  | next t' => exact ⟨t', rfl, Host.Outcome.next.inj h⟩
  | fault f => cases h
  | refused r => cases h

theorem eraseObservations_eq_fault {o : Host.Outcome State Fault Refusal} {f : Fault}
    (h : eraseObservations o = .fault f) : o = .fault f := by
  cases o with
  | next t => cases h
  | fault g => exact h
  | refused r => cases h

theorem eraseObservations_eq_refused {o : Host.Outcome State Fault Refusal} {r : Refusal}
    (h : eraseObservations o = .refused r) : o = .refused r := by
  cases o with
  | next t => cases h
  | fault f => cases h
  | refused q => exact h

/-! Each update: clearing the observations before it changes nothing else of its result. -/

theorem State.notify_withoutObservations (s : State) (h : Half) :
    (s.withoutObservations.notify h).withoutObservations = (s.notify h).withoutObservations := by
  cases h <;> rfl

theorem State.crossing_withoutObservations (s : State) :
    s.withoutObservations.crossing.withoutObservations = s.crossing.withoutObservations := by
  have hcursor : s.withoutObservations.cursor = s.cursor := rfl
  rw [State.crossing_eq, State.crossing_eq s, hcursor]
  split_ifs
  · exact s.notify_withoutObservations .half1
  · exact s.notify_withoutObservations .half0
  · rfl

/-- A tick writes both observations and reads neither for anything else. -/
theorem State.drain_withoutObservations (s : State) :
    s.withoutObservations.drain.withoutObservations = s.drain.withoutObservations := by
  have hmoved :
      (s.withoutObservations.emit (s.bufRead s.cursor)).advanceCursor.withoutObservations =
        (s.emit (s.bufRead s.cursor)).advanceCursor.withoutObservations := rfl
  calc s.withoutObservations.drain.withoutObservations
      = (s.withoutObservations.emit
          (s.bufRead s.cursor)).advanceCursor.withoutObservations.crossing.withoutObservations :=
        (State.crossing_withoutObservations _).symm
    _ = s.drain.withoutObservations := by
        rw [hmoved]
        exact State.crossing_withoutObservations _

theorem State.serve_withoutObservations (s : State) (h : Half) :
    (s.withoutObservations.serve h).withoutObservations = (s.serve h).withoutObservations := by
  cases h <;> rfl

theorem State.genSlot_withoutObservations (s : State) :
    s.withoutObservations.genSlot.withoutObservations = s.genSlot.withoutObservations := by
  rw [State.genSlot_frame, State.genSlot_frame s]
  rfl

theorem State.clockEdge_withoutObservations (s : State) (rst : Bool) :
    (s.withoutObservations.clockEdge rst).withoutObservations =
      (s.clockEdge rst).withoutObservations := by
  cases rst <;> rfl

theorem State.consume_withoutObservations (s : State) :
    s.withoutObservations.consume = s.consume.withoutObservations := by
  unfold State.consume
  rw [show s.withoutObservations.queue = s.queue from rfl]
  split <;> rfl

/-- Where a configuration is ill formed nothing runs. -/
theorem withConfig_illFormed {c : Config} {j : Voice} (h : illFormedStep c = some j)
    (k : Host.Outcome State Fault Refusal) : withConfig c k = .refused (.configRefused j) := by
  simp [withConfig, h]

theorem configLegal_of_none {c : Config} (h : illFormedStep c = none) : configLegal c = true := by
  simp [configLegal, h]

theorem execGenslot_illFormed {s : State} {j : Voice} (hb : s.genBusy = true)
    (hc : illFormedStep s.cfg = some j) : exec .genslot s = .refused (.configRefused j) := by
  simp [exec, execGenslot, State.genEnabled, hb, withConfig_illFormed hc]

theorem execGenslot_unreadable {s : State} {j : Voice} (hb : s.genBusy = true)
    (hc : configLegal s.cfg = true) (hp : unreadableVoice s.phase s.act = some j) :
    exec .genslot s = .fault (.phaseOutOfCycle j) := by
  simp [exec, execGenslot, State.genEnabled, hb, withConfig_legal hc, hp]

theorem exec_withoutObservations (i : Instr) (s : State) :
    eraseObservations (exec i s.withoutObservations) = eraseObservations (exec i s) := by
  cases i with
  | nop low => rfl
  | setact note v =>
    cases hv : noteVoice s.cfg note with
    | none => rw [execSetact_noVoice hv, execSetact_noVoice (s := s.withoutObservations) hv]; rfl
    | some j => rw [execSetact_voice hv, execSetact_voice (s := s.withoutObservations) hv]; rfl
  | tick => exact eraseObservations_next_congr s.drain_withoutObservations
  | arbstart =>
    cases he : s.arbEnabled with
    | false => rw [execArbstart_idle he, execArbstart_idle (s := s.withoutObservations) he]
    | true =>
      rw [execArbstart_enabled he, execArbstart_enabled (s := s.withoutObservations) he]
      exact eraseObservations_next_congr (s.serve_withoutObservations s.servedHalf)
  | genslot =>
    cases hb : s.genBusy with
    | false => rw [execGenslot_idle hb, execGenslot_idle (s := s.withoutObservations) hb]
    | true =>
      cases hc : illFormedStep s.cfg with
      | some j =>
        rw [execGenslot_illFormed hb hc, execGenslot_illFormed (s := s.withoutObservations) hb hc]
      | none =>
        have hc := configLegal_of_none hc
        cases hp : unreadableVoice s.phase s.act with
        | some j =>
          rw [execGenslot_unreadable hb hc hp,
            execGenslot_unreadable (s := s.withoutObservations) hb hc hp]
        | none =>
          rw [execGenslot_ready hb hc hp, execGenslot_ready (s := s.withoutObservations) hb hc hp]
          exact eraseObservations_next_congr s.genSlot_withoutObservations

theorem State.take_withoutObservations (s : State) (e : Event) :
    eraseObservations (s.withoutObservations.take e) = eraseObservations (s.take e) := by
  have hrst : s.withoutObservations.rst = s.rst := rfl
  cases e with
  | clkEdge rst => exact eraseObservations_next_congr (s.clockEdge_withoutObservations rst)
  | hostCmd w =>
    simp only [State.take, State.takeHostCmd, hrst]
    split
    · rfl
    · split
      · exact exec_withoutObservations _ s
      · rfl
  | agentStep w =>
    simp only [State.take, State.takeAgentStep, hrst]
    split
    · rfl
    · split_ifs
      · rfl
      · rfl
      · exact exec_withoutObservations _ s

theorem step_illFormed {s : State} {j : Voice} (h : illFormedStep s.cfg = some j) :
    step s = .refused (.configRefused j) :=
  withConfig_illFormed h _

/-- R40: the outcome of a step, but for the observations, does not depend on them. -/
theorem step_withoutObservations (s : State) :
    eraseObservations (step s.withoutObservations) = eraseObservations (step s) := by
  cases hc : illFormedStep s.cfg with
  | some j => rw [step_illFormed hc, step_illFormed (s := s.withoutObservations) hc]
  | none =>
    have hc := configLegal_of_none hc
    rw [step_legal hc, step_legal (s := s.withoutObservations) hc, s.consume_withoutObservations]
    exact s.consume.take_withoutObservations s.nextEvent

/-- Settles O48: both steps have the outcome of the step of the one state without observations. -/
theorem observationsAreReadByNoStep : Obligations.ObservationsAreReadByNoStep := by
  intro s u hsu
  have hstep : eraseObservations (step u) = eraseObservations (step s) := by
    rw [← step_withoutObservations u, ← hsu, step_withoutObservations]
  refine ⟨fun t ht => ?_, fun f hf => ?_, fun r hr => ?_⟩
  · obtain ⟨t', hu, ht'⟩ := eraseObservations_eq_next (hstep.trans (congrArg _ ht))
    exact ⟨t', hu, ht'.symm⟩
  · exact eraseObservations_eq_fault (hstep.trans (congrArg _ hf))
  · exact eraseObservations_eq_refused (hstep.trans (congrArg _ hr))

/-! ## Legal phase steps -/

/-- A magnitude is below 256.0 exactly if its exponent field is below that of 256.0. -/
theorem f32Magnitude_lt_tableSize_iff (b : F32) :
    f32Magnitude b < 256 * unitsOfOne ↔ f32Exponent b < 135 := by
  have hf : f32Fraction b < 2 ^ 23 := by rw [f32Fraction_eq]; omega
  have hsize : 256 * unitsOfOne = 2 ^ 23 * 2 ^ 134 := by decide
  rw [hsize]
  rcases Nat.lt_or_ge (f32Exponent b) 135 with he | he
  · refine iff_of_true ?_ he
    by_cases h0 : f32Exponent b = 0
    · rw [f32Magnitude, if_pos h0]
      exact hf.trans (by decide)
    · rw [f32Magnitude_of_normal h0]
      calc (2 ^ 23 + f32Fraction b) * 2 ^ (f32Exponent b - 1)
          ≤ (2 ^ 23 + f32Fraction b) * 2 ^ 133 :=
            Nat.mul_le_mul_left _ (Nat.pow_le_pow_right (by decide) (by omega))
        _ < 2 ^ 23 * 2 ^ 134 := by omega
  · refine iff_of_false (Nat.not_lt.2 ?_) (Nat.not_lt.2 he)
    rw [f32Magnitude_of_normal (by omega)]
    exact Nat.mul_le_mul (by omega) (Nat.pow_le_pow_right (by decide) (by omega))

theorem f32Value_lt_tableSize_iff (b : F32) :
    f32Value b < 256 ↔ f32Units b < 256 * unitsOfOne := by
  rw [f32Value, div_lt_iff₀ (by positivity), unitsOfOne]
  exact_mod_cast Iff.rfl

theorem f32Value_nonneg {b : F32} (h : f32Negative b = false) : 0 ≤ f32Value b := by
  rw [f32Value_of_nonneg h]
  positivity

/-- R28 by value. -/
theorem inCycle_iff_value (b : F32) :
    inCycle b = true ↔
      f32Finite b = true ∧ f32Negative b = false ∧ 0 ≤ f32Value b ∧ f32Value b < 256 := by
  rw [inCycle_iff, f32Value_lt_tableSize_iff]
  exact and_congr_right fun _ => and_congr_right fun hneg =>
    (and_iff_right (f32Value_nonneg hneg)).symm

/-- R28 by bit pattern: the sign bit is clear and the exponent field is below that of 256.0. -/
theorem inCycle_iff_toNat_lt (b : F32) : inCycle b = true ↔ b.toNat < 0x43800000 := by
  have hexp := f32Exponent_eq b
  rw [inCycle_iff, f32Negative_eq, f32Finite, decide_eq_true_iff, decide_eq_false_iff_not]
  constructor
  · rintro ⟨-, hsign, hlt⟩
    rw [f32Units_of_nonneg (by simpa [f32Negative_eq] using hsign)] at hlt
    have := (f32Magnitude_lt_tableSize_iff b).1 (by exact_mod_cast hlt)
    omega
  · intro h
    have hsign : ¬ 2 ^ 31 ≤ b.toNat := by omega
    have hlt := (f32Magnitude_lt_tableSize_iff b).2 (by omega)
    rw [f32Units_of_nonneg (by simpa [f32Negative_eq] using hsign)]
    exact ⟨by omega, hsign, by exact_mod_cast hlt⟩

/-- Settles O12: a legal step is a step in cycle. -/
theorem legalPhaseSteps : Obligations.LegalPhaseSteps :=
  fun c j => ⟨inCycle_iff_value c.phaseStep[j], inCycle_iff_toNat_lt c.phaseStep[j]⟩

/-! ## The writers of each register -/

/-- Settles O49, operation by operation from what each can do (`exec_cases`). -/
theorem eachRegisterHasItsWriters : Obligations.EachRegisterHasItsWriters := by
  intro i s t h
  have hread : t.buf = s.buf → t.resets = s.resets → ∀ a, t.bufRead a = s.bufRead a :=
    State.bufRead_congr
  rcases exec_cases h with ⟨rfl, low, rfl⟩ | ⟨note, v, rfl, ⟨j, -, rfl⟩ | ⟨-, rfl⟩⟩ |
    ⟨rfl, rfl⟩ | ⟨rfl, -, rfl⟩ | ⟨rfl, -, -, -, rfl⟩
  · simp
  · simpa using hread
  · simp
  · simpa [State.drain] using hread
  · simpa using hread
  · simp [State.genSlot]

/-! ## The strobe -/

@[simp] theorem State.drain_sampleStrobe (s : State) : s.drain.sampleStrobe = true := by
  simp [State.drain]

@[simp] theorem State.genSlot_sampleStrobe (s : State) :
    s.genSlot.sampleStrobe = s.sampleStrobe := by
  simp [State.genSlot]

@[simp] theorem State.clockEdge_sampleStrobe (s : State) (rst : Bool) :
    (s.clockEdge rst).sampleStrobe = false := by
  cases rst <;> rfl

/-- Only a tick writes the strobe. -/
theorem exec_sampleStrobe {i : Instr} {s t : State} (hi : i ≠ .tick) (h : exec i s = .next t) :
    t.sampleStrobe = s.sampleStrobe := by
  rcases exec_cases h with ⟨rfl, -⟩ | ⟨note, v, -, ⟨j, -, rfl⟩ | ⟨-, rfl⟩⟩ | ⟨htick, -⟩ |
    ⟨-, -, rfl⟩ | ⟨-, -, -, -, rfl⟩
  · rfl
  · exact State.setActive_sampleStrobe s j v
  · rfl
  · exact absurd htick hi
  · exact State.serve_sampleStrobe s _
  · exact State.genSlot_sampleStrobe s

/-- A placed clock edge happens whatever the state. -/
theorem step_placed_clkEdge {s : State} {rst : Bool} {rest : List Event}
    (hc : configLegal s.cfg = true) (hq : s.queue = .clkEdge rst :: rest) :
    step s = .next (State.clockEdge { s with queue := rest } rst) :=
  step_placed hc hq

/-- Settles O17. -/
theorem strobeMarksTheCycleAfterATick : Obligations.StrobeMarksTheCycleAfterATick := by
  refine ⟨fun s t h => ?_, fun i s t => exec_sampleStrobe, fun s rest b hc hq => ?_⟩
  · rw [execTick_eq] at h
    exact Host.Outcome.next.inj h ▸ s.drain_sampleStrobe
  · exact ⟨_, step_placed_clkEdge hc hq, State.clockEdge_sampleStrobe _ b⟩

/-- Settles O56: a clock edge with `rst` low writes the strobe and the level of `rst`, both low. -/
theorem clockEdgeOnlyEndsTheStrobe : Obligations.ClockEdgeOnlyEndsTheStrobe :=
  fun _ _ hc hq => ⟨_, step_placed_clkEdge hc hq, rfl, rfl, rfl⟩

/-! ## The reset state -/

theorem State.initial_phase (c : Config) (n : Nat) (j : Voice) :
    (State.initial c n).phase[j] = 0x00000000#32 :=
  Vector.getElem_replicate _

theorem State.initial_isActive (c : Config) (n : Nat) (j : Voice) :
    isActive (State.initial c n).act j = false :=
  BitVec.getLsbD_zero

@[simp] theorem State.initial_pending (c : Config) (n : Nat) (h : Half) :
    (State.initial c n).pending h = false := by
  cases h <;> rfl

/-- Settles O16, field by field. -/
theorem valuesAfterReset : Obligations.ValuesAfterReset :=
  ⟨fun j => ⟨State.initial_phase _ _ j, State.initial_isActive _ _ j⟩, fun _ => rfl, rfl,
    State.initial_pending _ _, rfl, rfl, rfl, rfl, rfl, rfl, rfl⟩

theorem State.initial_good {c : Config} (h : configLegal c = true) (n : Nat) :
    (State.initial c n).Good where
  cfg_legal := h
  phases j := by rw [State.initial_phase, inCycle_iff_toNat_lt]; decide
  buf_wf := State.initial_buf_wf c n
  buf_range _ _ hfind := nomatch hfind

/-- Nothing is requested or in progress. -/
theorem State.initial_quietHalf (c : Config) (n : Nat) : (State.initial c n).quietHalf := by
  intro _
  rw [State.unrefilled, State.initial_pending]
  rfl

theorem State.initial_firstRevolution (c : Config) (n : Nat) :
    (State.initial c n).FirstRevolution where
  counts := rfl
  no_request _ := ⟨rfl, rfl, rfl, rfl⟩
  only_half0 _ := ⟨rfl, rfl, fun _ _ => rfl⟩
  draws _ _ hk := absurd hk (Nat.not_lt_zero _)

theorem State.initial_heldInReset (c : Config) (n : Nat) : (State.initial c n).heldInReset :=
  fun h => nomatch h

theorem configLegal_default : configLegal defaultConfig = true := by decide +kernel

/-- Settles O40: the initial state of every legal configuration meets the four, and the default
configuration is legal. -/
theorem invariantsHoldAtReset : Obligations.InvariantsHoldAtReset :=
  ⟨State.initial_good configLegal_default 0, State.initial_quietHalf _ 0,
    State.initial_firstRevolution _ 0, State.initial_heldInReset _ 0⟩

end Sys2Proof.Machine
end

section
/-!
SUPPORT. The memory rules: the run of a decoded operation by a step (20_memory.md R61, 30_encoding.md
R72), and the sine table (20_memory.md R51, R53) against the exact sine, through the sine's Taylor
polynomial in whole numbers.
-/
namespace Sys2Proof.Machine

/-! ## The operation a word names is the one its event runs -/

/-- Outside a reset a host word runs the operation it decodes to. -/
theorem State.take_hostCmd {s : State} {w : Word} {i : Instr} (hr : s.rst = false)
    (hd : decodeHost w = .op i) : s.take (.hostCmd w) = exec i s := by
  simp [State.take, State.takeHostCmd, hd, hr]

theorem decodeWord_event {w : Word} {i : Instr} (hf : isEventFormat w = true) :
    decodeWord w = some i ↔ decodeEvent w = .ok i := by
  cases hd : decodeEvent w <;> simp [decodeWord, hf, hd]

theorem decodeWord_host {w : Word} {i : Instr} (hf : isEventFormat w = false) :
    decodeWord w = some i ↔ decodeHost w = .op i := by
  cases hd : decodeHost w <;> simp [decodeWord, hf, hd]

/-- Outside a reset a word presented on the port of its format runs the operation it names (R72). -/
theorem State.take_eventOfWord {s : State} {w : Word} {i : Instr} (hr : s.rst = false)
    (hd : decodeWord w = some i) : s.take (eventOfWord w) = exec i s := by
  cases hf : isEventFormat w with
  | true => simpa [eventOfWord, hf] using State.take_agentStep hr ((decodeWord_event hf).1 hd)
  | false => simpa [eventOfWord, hf] using State.take_hostCmd hr ((decodeWord_host hf).1 hd)

/-- Settles O9: the first placed event is taken (`step_placed`) and runs what its word names. -/
theorem stepRunsTheDecodedOperation : Obligations.StepRunsTheDecodedOperation := by
  refine ⟨fun s w rest i hc hr => ⟨fun hq hd => ?_, fun hq hd => ?_⟩, fun s w i hc hd => ?_⟩
  · exact (step_placed hc hq).trans (State.take_hostCmd hr hd)
  · exact (step_placed hc hq).trans (State.take_agentStep hr hd)
  · exact (step_placed (s := s.withFetchWord 16 w) hc rfl).trans (State.take_eventOfWord rfl hd)

/-! ## The sine's Taylor polynomial in whole numbers -/

/-- The sum of the first `n` terms of the sine's power series at `a / d`, times `sinDenominator d n`. -/
def sinNumerator (a d : ℕ) : ℕ → ℤ
  | 0 => 0
  | n + 1 => (d ^ 2 * (2 * n + 1) * (2 * n + 2) : ℕ) * sinNumerator a d n +
      (-1) ^ n * (a ^ (2 * n + 1) * d * (2 * n + 2) : ℕ)

/-- A common denominator of those terms, `d ^ (2 * n - 1) * (2 * n - 1)!`, times `2 * n * d`. -/
def sinDenominator (d n : ℕ) : ℕ := d ^ (2 * n) * (2 * n).factorial

theorem sinDenominator_pos {d : ℕ} (hd : 0 < d) (n : ℕ) : 0 < sinDenominator d n := by
  unfold sinDenominator
  positivity

/-- The imaginary part of the series of `exp (x * I)` gains the sine's next term with every two terms: the
even power is real. -/
theorem im_expSum_succ (x : ℝ) (n : ℕ) :
    (∑ m ∈ Finset.range (2 * (n + 1)), ((x : ℂ) * Complex.I) ^ m / (m.factorial : ℂ)).im =
      (∑ m ∈ Finset.range (2 * n), ((x : ℂ) * Complex.I) ^ m / (m.factorial : ℂ)).im +
        (-1) ^ n * x ^ (2 * n + 1) / (2 * n + 1).factorial := by
  have heven : ((x : ℂ) * Complex.I) ^ (2 * n) / ((2 * n).factorial : ℂ) =
      (((-1) ^ n * x ^ (2 * n) / (2 * n).factorial : ℝ) : ℂ) := by
    push_cast
    rw [mul_pow, pow_mul Complex.I, Complex.I_sq, mul_comm]
  have hodd : ((x : ℂ) * Complex.I) ^ (2 * n + 1) / ((2 * n + 1).factorial : ℂ) =
      (((-1) ^ n * x ^ (2 * n + 1) / (2 * n + 1).factorial : ℝ) : ℂ) * Complex.I := by
    push_cast
    rw [mul_pow, pow_succ Complex.I, pow_mul Complex.I, Complex.I_sq]
    ring
  rw [Nat.mul_succ, Finset.sum_range_succ, Finset.sum_range_succ, heven, hodd, Complex.add_im,
    Complex.add_im, Complex.ofReal_im, Complex.im_ofReal_mul, Complex.I_im, add_zero, mul_one]

theorem im_expSum_eq_sinNumerator_div (a : ℕ) {d : ℕ} (hd : 0 < d) (n : ℕ) :
    (∑ m ∈ Finset.range (2 * n), (((a / d : ℝ) : ℂ) * Complex.I) ^ m / (m.factorial : ℂ)).im =
      (sinNumerator a d n : ℝ) / sinDenominator d n := by
  have hd0 : (d : ℝ) ≠ 0 := by exact_mod_cast hd.ne'
  induction n with
  | zero => simp [sinNumerator]
  | succ n ih =>
    rw [im_expSum_succ, ih, sinNumerator, sinDenominator, sinDenominator, Nat.mul_succ 2 n,
      Nat.factorial_succ (2 * n + 1), Nat.factorial_succ (2 * n), div_pow]
    push_cast
    field_simp
    ring

theorem abs_sin_sub_sinNumerator_div_le (a : ℕ) {d : ℕ} (hd : 0 < d) {n : ℕ}
    (h : (a / d : ℝ) / (2 * n).succ ≤ 1 / 2) :
    |Real.sin (a / d) - sinNumerator a d n / sinDenominator d n| ≤
      (a / d) ^ (2 * n) / (2 * n).factorial * 2 := by
  have hnorm : ‖((a / d : ℝ) : ℂ) * Complex.I‖ = a / d := by
    rw [norm_mul, Complex.norm_I, mul_one, Complex.norm_of_nonneg (by positivity)]
  have hexp := Complex.exp_bound' (n := 2 * n) (hnorm.symm ▸ h)
  rw [hnorm] at hexp
  rw [← im_expSum_eq_sinNumerator_div a hd, ← Complex.exp_ofReal_mul_I_im, ← Complex.sub_im]
  exact (Complex.abs_im_le_norm _).trans hexp

/-! ## The table against the sine -/

/-- The angle `2 * pi * i / 256` with `pi` cut after eight decimals. -/
noncomputable def cutAngle (i : ℕ) : ℝ := (314159265 * i : ℕ) / (128 * 10 ^ 8 : ℕ)

/-- The sine's Taylor polynomial of degree 29 at `cutAngle i`, times `tableSineDenominator`. -/
def tableSineNumerator (i : ℕ) : ℤ := sinNumerator (314159265 * i) (128 * 10 ^ 8) 15

def tableSineDenominator : ℕ := sinDenominator (128 * 10 ^ 8) 15

theorem angle_sub_cutAngle (i : ℕ) :
    2 * Real.pi * i / 256 - cutAngle i = (Real.pi - 3.14159265) * (i / 128) := by
  unfold cutAngle
  push_cast
  ring

section
variable {i : ℕ} (hi : i < 256)
include hi

theorem abs_angle_sub_cutAngle_le : |2 * Real.pi * i / 256 - cutAngle i| ≤ 1 / 10 ^ 8 := by
  have hlo := Real.pi_gt_d20
  have hhi := Real.pi_lt_d20
  have hiR : (i : ℝ) ≤ 255 := by exact_mod_cast Nat.le_of_lt_succ hi
  rw [angle_sub_cutAngle, abs_of_nonneg (mul_nonneg (by linarith) (by positivity))]
  calc (Real.pi - 3.14159265) * (i / 128) ≤ 4 / 10 ^ 9 * 2 := by gcongr <;> linarith
    _ ≤ 1 / 10 ^ 8 := by norm_num

theorem cutAngle_le : cutAngle i ≤ 6.26 := by
  have hiR : (i : ℝ) ≤ 255 := by exact_mod_cast Nat.le_of_lt_succ hi
  unfold cutAngle
  push_cast
  linarith

theorem abs_sin_cutAngle_sub_tableSine_le :
    |Real.sin (cutAngle i) - tableSineNumerator i / tableSineDenominator| ≤ 1 / 10 ^ 8 := by
  have hle := cutAngle_le hi
  have h0 : 0 ≤ cutAngle i := by
    unfold cutAngle
    positivity
  calc |Real.sin (cutAngle i) - tableSineNumerator i / tableSineDenominator|
      ≤ cutAngle i ^ (2 * 15) / (2 * 15).factorial * 2 :=
        abs_sin_sub_sinNumerator_div_le _ (by decide) (by rw [← cutAngle]; norm_num; linarith)
    _ ≤ 6.26 ^ (2 * 15) / (2 * 15).factorial * 2 := by gcongr
    _ ≤ 1 / 10 ^ 8 := by norm_num [Nat.factorial]

theorem abs_sin_sub_tableSine_le :
    |Real.sin (2 * Real.pi * i / 256) - tableSineNumerator i / tableSineDenominator| ≤ 2 / 10 ^ 8 := by
  have hangle := (Real.abs_sin_sub_sin_le _ _).trans (abs_angle_sub_cutAngle_le hi)
  grw [abs_sub_le _ (Real.sin (cutAngle i)), hangle, abs_sin_cutAngle_sub_tableSine_le hi]
  norm_num

end

/-- The nearest word to a tie, at index 9, is more than 2 parts in 10^4 away from it. -/
theorem tableWords_near_tableSine : ∀ p ∈ tableWords.zipIdx,
    2 * 10 ^ 4 * (p.1.toNat * tableSineDenominator -
        2047 * (tableSineNumerator p.2 + tableSineDenominator)).natAbs <
      (10 ^ 4 - 2) * tableSineDenominator := by
  decide +kernel

theorem mem_zipIdx_of_tableRead {i : ℕ} {v : Sample} (h : tableRead i = some v) :
    (v, i) ∈ tableWords.zipIdx :=
  List.mem_zipIdx_iff_getElem?.2 h

theorem tableRead_near_tableSine {i : ℕ} {v : Sample} (h : tableRead i = some v) :
    |(v.toNat : ℝ) - 2047 * (tableSineNumerator i / tableSineDenominator + 1)| <
      1 / 2 - 1 / 10 ^ 4 := by
  have hD : (0 : ℝ) < tableSineDenominator := by
    exact_mod_cast sinDenominator_pos (by decide) 15
  have hword := tableWords_near_tableSine _ (mem_zipIdx_of_tableRead h)
  rw [← Int.ofNat_lt] at hword
  push_cast at hword
  have hscaled : 2 * 10 ^ 4 * |(v.toNat : ℝ) * tableSineDenominator -
      2047 * (tableSineNumerator i + tableSineDenominator)| < (10 ^ 4 - 2) * tableSineDenominator := by
    exact_mod_cast hword
  have hdiv : (v.toNat : ℝ) - 2047 * (tableSineNumerator i / tableSineDenominator + 1) =
      (v.toNat * tableSineDenominator - 2047 * (tableSineNumerator i + tableSineDenominator)) /
        tableSineDenominator := by
    field_simp
  rw [hdiv, abs_div, abs_of_pos hD, div_lt_iff₀ hD]
  linarith

/-- Settles O37: word and sine are both near the Taylor polynomial in whole numbers. -/
theorem tableIsTheRoundedSine : Obligations.TableIsTheRoundedSine := by
  intro i hi
  obtain ⟨v, hv⟩ := tableRead_some hi
  refine ⟨v, hv, ?_⟩
  have hsine := abs_sin_sub_tableSine_le hi
  have hword := tableRead_near_tableSine hv
  rw [abs_le] at hsine
  rw [abs_lt] at hword ⊢
  constructor <;> linarith

/-! ## The properties of the table -/

/-- The sine has period 256 in the index. -/
theorem sin_index_mod (i : ℕ) :
    Real.sin (2 * Real.pi * (i % 256 : ℕ) / 256) = Real.sin (2 * Real.pi * i / 256) := by
  have hi : (i : ℝ) = 256 * (i / 256 : ℕ) + (i % 256 : ℕ) := by
    exact_mod_cast (Nat.div_add_mod i 256).symm
  rw [← Real.sin_add_nat_mul_two_pi _ (i / 256), hi]
  congr 1
  ring

theorem tableRead_mod_near (i : ℕ) : ∃ v, tableRead (i % 256) = some v ∧
    |(v.toNat : ℝ) - 2047 * (Real.sin (2 * Real.pi * i / 256) + 1)| < 1 / 2 :=
  sin_index_mod i ▸ tableIsTheRoundedSine _ (Nat.mod_lt i (by decide))

theorem nat_eq_of_abs_sub_lt_one {m n : ℕ} (h : |(m : ℝ) - n| < 1) : m = n := by
  have : |(m : ℤ) - n| < 1 := by exact_mod_cast h
  have := Int.abs_lt_one_iff.1 this
  omega

/-- Indices with the same sine have the same word. -/
theorem tableRead_congr {i j : ℕ}
    (h : Real.sin (2 * Real.pi * i / 256) = Real.sin (2 * Real.pi * j / 256)) :
    tableRead (i % 256) = tableRead (j % 256) := by
  obtain ⟨v, hv, hvs⟩ := tableRead_mod_near i
  obtain ⟨u, hu, hus⟩ := tableRead_mod_near j
  rw [h] at hvs
  have : v.toNat = u.toNat := nat_eq_of_abs_sub_lt_one (by
    rw [abs_lt] at *
    constructor <;> linarith)
  rw [hv, hu, BitVec.eq_of_toNat_eq this]

/-- Half a wave later the sine has the opposite sign. -/
theorem tableRead_half_wave {i : ℕ} {v u : Sample} (hv : tableRead (i % 256) = some v)
    (hu : tableRead ((i + 128) % 256) = some u) : v.toNat + u.toNat = 4094 := by
  have hsin : Real.sin (2 * Real.pi * (i + 128 : ℕ) / 256) = -Real.sin (2 * Real.pi * i / 256) := by
    rw [← Real.sin_add_pi]
    congr 1
    push_cast
    ring
  obtain ⟨v', hv', hvs⟩ := tableRead_mod_near i
  obtain ⟨u', hu', hus⟩ := tableRead_mod_near (i + 128)
  obtain rfl : v' = v := Option.some.inj (hv'.symm.trans hv)
  obtain rfl : u' = u := Option.some.inj (hu'.symm.trans hu)
  rw [hsin] at hus
  refine nat_eq_of_abs_sub_lt_one ?_
  push_cast
  rw [abs_lt] at *
  constructor <;> linarith

/-- The sine is the same on both sides of its maximum, at index 64. -/
theorem tableRead_quarter_wave {i : ℕ} (hi : i < 256) :
    tableRead ((320 - i) % 256) = tableRead ((64 + i) % 256) := by
  refine tableRead_congr ?_
  rw [← Real.sin_pi_sub (2 * Real.pi * (64 + i : ℕ) / 256), ← Real.sin_add_two_pi (Real.pi - _)]
  congr 1
  push_cast [Nat.cast_sub (show i ≤ 320 by omega)]
  ring

theorem tableWords_max : ∀ p ∈ tableWords.zipIdx, p.1.toNat = 4094 ↔ p.2 = 64 := by decide +kernel

theorem tableRead_max {i : ℕ} {v : Sample} (h : tableRead i = some v) : v.toNat = 4094 ↔ i = 64 :=
  tableWords_max _ (mem_zipIdx_of_tableRead h)

/-- Settles O38: the symmetries are those of the sine, and the minimum lies half a wave from the
maximum. -/
theorem tableProperties : Obligations.TableProperties := by
  refine ⟨rfl, rfl, fun i hi => ?_⟩
  obtain ⟨v, hv⟩ := tableRead_some hi
  obtain ⟨u, hu⟩ := tableRead_some (Nat.mod_lt (i + 128) (by decide : 256 > 0))
  have hsum := tableRead_half_wave ((Nat.mod_eq_of_lt hi).symm ▸ hv) hu
  have hmax := tableRead_max hu
  exact ⟨v, u, hv, hu, hsum, tableRead_le hv, tableRead_max hv, by omega, tableRead_quarter_wave hi⟩

end Sys2Proof.Machine
end

section
/-!
SUPPORT. The encoding (30_encoding.md): the fields of a word as numbers, the word of an operation by its
fields, that each decoder answers an operation exactly for that operation's word (R70 to R73, R75), and
the assembler's lines (R77, R78).
-/
namespace Sys2Proof

/-! ## The fields as numbers (R70, R71) -/

theorem fieldOp_toNat (w : Word) : (fieldOp w).toNat = w.toNat / 4096 := by
  have := w.isLt
  simp only [fieldOp, BitVec.extractLsb'_toNat, Nat.shiftRight_eq_div_pow]
  omega

theorem fieldNote_toNat (w : Word) : (fieldNote w).toNat = w.toNat / 256 % 16 := by
  simp [fieldNote, Nat.shiftRight_eq_div_pow]

theorem fieldRsv_toNat (w : Word) : (fieldRsv w).toNat = w.toNat / 2 % 128 := by
  simp [fieldRsv, Nat.shiftRight_eq_div_pow]

theorem fieldLow_toNat (w : Word) : (fieldLow w).toNat = w.toNat % 4096 := by
  simp [fieldLow]

theorem fieldOp_eq_iff (w : Word) (k : BitVec 4) : fieldOp w = k ↔ w.toNat / 4096 = k.toNat := by
  rw [← BitVec.toNat_inj, fieldOp_toNat]

theorem fieldNote_eq_iff (w : Word) (k : BitVec 4) :
    fieldNote w = k ↔ w.toNat / 256 % 16 = k.toNat := by
  rw [← BitVec.toNat_inj, fieldNote_toNat]

theorem fieldRsv_eq_iff (w : Word) (k : BitVec 7) : fieldRsv w = k ↔ w.toNat / 2 % 128 = k.toNat := by
  rw [← BitVec.toNat_inj, fieldRsv_toNat]

theorem fieldLow_eq_iff (w : Word) (k : BitVec 12) : fieldLow w = k ↔ w.toNat % 4096 = k.toNat := by
  rw [← BitVec.toNat_inj, fieldLow_toNat]

theorem fieldV_eq_iff (w : Word) (v : Bool) : fieldV w = v ↔ w.toNat % 2 = v.toNat := by
  rw [fieldV, BitVec.getLsbD, Nat.testBit_zero]
  cases v <;> simp

theorem noteLegal_fieldNote_iff (w : Word) :
    noteLegal (fieldNote w) = true ↔ w.toNat / 256 % 16 ≤ 11 := by
  rw [noteLegal, decide_eq_true_eq, fieldNote_toNat]

/-- The fields of a `SETACT` word as numbers (R70, R75). -/
theorem setactFields_iff (w : Word) :
    (fieldOp w = 1 ∧ fieldRsv w = 0 ∧ noteLegal (fieldNote w) = true) ↔
      w.toNat / 4096 = 1 ∧ w.toNat / 2 % 128 = 0 ∧ w.toNat / 256 % 16 ≤ 11 := by
  rw [fieldOp_eq_iff, fieldRsv_eq_iff, noteLegal_fieldNote_iff]
  rfl

/-! ## The word of an operation, by its fields -/

theorem toNat_append_eq_add {m n : Nat} (a : BitVec m) (b : BitVec n) :
    (a ++ b).toNat = 2 ^ n * a.toNat + b.toNat := by
  rw [BitVec.toNat_append, Nat.shiftLeft_eq, Nat.mul_comm, Nat.two_pow_add_eq_or_of_lt b.isLt]

theorem encode_nop_eq_iff {low : BitVec 12} {w : Word} :
    encode (.nop low) = w ↔ fieldOp w = 0 ∧ fieldLow w = low := by
  have := low.isLt
  rw [fieldOp_eq_iff, fieldLow_eq_iff, ← BitVec.toNat_inj, encode, toNat_append_eq_add]
  simp only [BitVec.ofNat_eq_ofNat, BitVec.toNat_ofNat]
  omega

theorem encode_setact_eq_iff {note : BitVec 4} {v : Bool} {w : Word} :
    encode (.setact note v) = w ↔
      fieldOp w = 1 ∧ fieldNote w = note ∧ fieldRsv w = 0 ∧ fieldV w = v := by
  have := note.isLt
  have := v.toNat_lt
  rw [fieldOp_eq_iff, fieldNote_eq_iff, fieldRsv_eq_iff, fieldV_eq_iff, ← BitVec.toNat_inj, encode,
    toNat_append_eq_add, toNat_append_eq_add, toNat_append_eq_add]
  simp only [BitVec.ofNat_eq_ofNat, BitVec.toNat_ofNat, BitVec.toNat_ofBool]
  omega

/-- Bit 15 of an operation's word tells whether the host issues it (R72). -/
theorem isEventFormat_encode (i : Instr) : isEventFormat (encode i) = !i.isHost := by
  cases i with
  | nop low => exact Laws.FormatOfWord.nop low
  | setact note v => exact Laws.FormatOfWord.setact note v
  | tick => exact Laws.FormatOfWord.tick
  | arbstart => exact Laws.FormatOfWord.arbstart
  | genslot => exact Laws.FormatOfWord.genslot

/-- The `OP` values in use (R73). -/
theorem fieldOp_encode_mem (i : Instr) :
    fieldOp (encode i) ∈ ([0, 1, 8, 9, 10] : List (BitVec 4)) := by
  cases i with
  | nop low => rw [(encode_nop_eq_iff.1 rfl).1]; decide
  | setact note v => rw [(encode_setact_eq_iff.1 rfl).1]; decide
  | tick => decide
  | arbstart => decide
  | genslot => decide

/-! ## The host port (R75) -/

theorem decodeHost_nop {w : Word} (h : fieldOp w = 0) : decodeHost w = .op (.nop (fieldLow w)) :=
  if_pos h

theorem decodeHost_setact {w : Word} (hop : fieldOp w = 1) (hrsv : fieldRsv w = 0)
    (hnote : noteLegal (fieldNote w) = true) :
    decodeHost w = .op (.setact (fieldNote w) (fieldV w)) := by
  simp [decodeHost, hop, hrsv, hnote]

theorem decodeHost_ignored {w : Word} (h0 : fieldOp w ≠ 0)
    (h1 : ¬ (fieldOp w = 1 ∧ fieldRsv w = 0 ∧ noteLegal (fieldNote w) = true)) :
    decodeHost w = .ignored w :=
  (if_neg h0).trans (if_neg h1)

/-- The host port answers an operation exactly for that operation's word. -/
theorem decodeHost_eq_op_iff {w : Word} {i : Instr} :
    decodeHost w = .op i ↔ i.wellFormed = true ∧ i.isHost = true ∧ encode i = w := by
  constructor
  · intro h
    unfold decodeHost at h
    split_ifs at h with h0 h1
    · obtain rfl := HostWord.op.inj h
      exact ⟨rfl, rfl, encode_nop_eq_iff.2 ⟨h0, rfl⟩⟩
    · obtain rfl := HostWord.op.inj h
      obtain ⟨hop, hrsv, hnote⟩ := h1
      exact ⟨hnote, rfl, encode_setact_eq_iff.2 ⟨hop, rfl, hrsv, rfl⟩⟩
  · rintro ⟨hwf, hhost, henc⟩
    cases i with
    | nop low =>
      obtain ⟨hop, rfl⟩ := encode_nop_eq_iff.1 henc
      exact decodeHost_nop hop
    | setact note v =>
      obtain ⟨hop, rfl, hrsv, rfl⟩ := encode_setact_eq_iff.1 henc
      exact decodeHost_setact hop hrsv hwf
    | tick => cases hhost
    | arbstart => cases hhost
    | genslot => cases hhost

theorem Machine.State.takeHostCmd_ignored {w u : Word} (h : decodeHost w = .ignored u) (s : State) :
    s.takeHostCmd w = .next s := by
  simp [State.takeHostCmd, h, ignoreHostWord]

/-- Settles O1: the clauses are those of `decodeHost`, read as numbers. -/
theorem hostPortDecodesByFields : Obligations.HostPortDecodesByFields := by
  intro w
  refine ⟨fun hop => ?_, fun h => ?_, fun h0 h1 => ?_⟩
  · exact ⟨fieldLow w, decodeHost_nop ((fieldOp_eq_iff w 0).2 hop), fieldLow_toNat w⟩
  · obtain ⟨hop, hrsv, hnote⟩ := (setactFields_iff w).2 h
    exact ⟨fieldNote w, fieldV w, decodeHost_setact hop hrsv hnote, fieldNote_toNat w,
      fieldV_eq_iff w true⟩
  · have hd : decodeHost w = .ignored w :=
      decodeHost_ignored (mt (fieldOp_eq_iff w 0).1 h0) (mt (setactFields_iff w).1 h1)
    exact ⟨hd, Machine.State.takeHostCmd_ignored hd⟩

/-! ## The event decoder (R71, R155) -/

/-- The low 12 bits and `OP` tell a word with zeros below its `OP`. -/
theorem toNat_eq_op_iff (w : Word) (k : BitVec 4) :
    w.toNat = 4096 * k.toNat ↔ fieldLow w = 0 ∧ fieldOp w = k := by
  rw [fieldLow_eq_iff, fieldOp_eq_iff]
  simp only [BitVec.ofNat_eq_ofNat, BitVec.toNat_ofNat]
  omega

/-- Settles O2: the low 12 bits and `OP` are the whole word. -/
theorem eventWordsNameThreeSteps : Obligations.EventWordsNameThreeSteps := by
  intro w
  have h8 : w.toNat = 0x8000 ↔ _ := toNat_eq_op_iff w 8
  have h9 : w.toNat = 0x9000 ↔ _ := toNat_eq_op_iff w 9
  have h10 : w.toNat = 0xA000 ↔ _ := toNat_eq_op_iff w 10
  by_cases hlow : fieldLow w = 0
  · simp only [decodeEvent, h8, h9, h10, hlow, true_and, if_true]
  · simp only [decodeEvent, h8, h9, h10, hlow, false_and, if_false]

/-- The event decoder answers an operation exactly for that operation's word. -/
theorem decodeEvent_eq_ok_iff {w : Word} {i : Instr} :
    decodeEvent w = .ok i ↔ i.isHost = false ∧ encode i = w := by
  constructor
  · intro h
    rw [eventWordsNameThreeSteps w] at h
    split_ifs at h with h8 h9 h10 <;> obtain rfl := Except.ok.inj h
    · exact ⟨rfl, BitVec.eq_of_toNat_eq h8.symm⟩
    · exact ⟨rfl, BitVec.eq_of_toNat_eq h9.symm⟩
    · exact ⟨rfl, BitVec.eq_of_toNat_eq h10.symm⟩
  · rintro ⟨hevent, rfl⟩
    cases i with
    | nop low => cases hevent
    | setact note v => cases hevent
    | tick => decide
    | arbstart => decide
    | genslot => decide

/-! ## Decode and encode -/

/-- Settles O4: each decoder answers an operation of its port for the word `encode` gives it. -/
theorem decodeOfEncodeIsIdentity : Obligations.DecodeOfEncodeIsIdentity :=
  fun _ hwf => ⟨fun hhost => decodeHost_eq_op_iff.2 ⟨hwf, hhost, rfl⟩,
    fun hevent => decodeEvent_eq_ok_iff.2 ⟨hevent, rfl⟩⟩

theorem Instr.wellFormed_of_event {i : Instr} (h : i.isHost = false) : i.wellFormed = true := by
  cases i with
  | nop low => rfl
  | setact note v => cases h
  | tick => rfl
  | arbstart => rfl
  | genslot => rfl

/-- In the format of its bit 15 (R72) a word is an operation exactly if it is that operation's word. -/
theorem decodeWord_eq_some_iff {w : Word} {i : Instr} :
    decodeWord w = some i ↔ i.wellFormed = true ∧ encode i = w := by
  cases hf : isEventFormat w with
  | true =>
    rw [Machine.decodeWord_event hf, decodeEvent_eq_ok_iff]
    refine ⟨fun ⟨hevent, henc⟩ => ⟨Instr.wellFormed_of_event hevent, henc⟩,
      fun ⟨_, henc⟩ => ⟨?_, henc⟩⟩
    simpa [← henc, isEventFormat_encode] using hf
  | false =>
    rw [Machine.decodeWord_host hf, decodeHost_eq_op_iff]
    refine ⟨fun ⟨hwf, _, henc⟩ => ⟨hwf, henc⟩, fun ⟨hwf, henc⟩ => ⟨hwf, ?_, henc⟩⟩
    simpa [← henc, isEventFormat_encode] using hf

/-- Settles O5: one direction of `decodeWord_eq_some_iff`. -/
theorem encodeOfDecodeIsIdentity : Obligations.EncodeOfDecodeIsIdentity :=
  fun _ _ h => decodeWord_eq_some_iff.1 h

/-! ## Match and mask (R73) -/

/-- A word is its four fields. -/
theorem word_eq_iff_fields (w u : Word) :
    w = u ↔ fieldOp w = fieldOp u ∧ fieldNote w = fieldNote u ∧ fieldRsv w = fieldRsv u ∧
      fieldV w = fieldV u := by
  rw [fieldOp_eq_iff, fieldNote_eq_iff, fieldRsv_eq_iff, fieldV_eq_iff, ← BitVec.toNat_inj,
    fieldOp_toNat, fieldNote_toNat, fieldRsv_toNat, ← (fieldV_eq_iff u _).1 rfl]
  omega

theorem and_eq_iff_fields (w m c : Word) :
    w &&& m = c ↔ fieldOp w &&& fieldOp m = fieldOp c ∧ fieldNote w &&& fieldNote m = fieldNote c ∧
      fieldRsv w &&& fieldRsv m = fieldRsv c ∧ (fieldV w && fieldV m) = fieldV c := by
  rw [word_eq_iff_fields, fieldOp, fieldNote, fieldRsv, fieldV, BitVec.extractLsb'_and,
    BitVec.extractLsb'_and, BitVec.extractLsb'_and, BitVec.getLsbD_and]
  rfl

/-- The mask 0xF000 keeps `OP` and clears the other fields. -/
theorem and_opMask_iff (w : Word) : w &&& 0xF000#16 = 0x0000#16 ↔ fieldOp w = 0 := by
  have hop : w.extractLsb' 12 4 &&& 15#4 = w.extractLsb' 12 4 := BitVec.and_allOnes
  simp [and_eq_iff_fields, fieldOp, fieldNote, fieldRsv, fieldV, hop]

/-- The mask 0xF0FE keeps `OP` and `RSV` and clears the other fields. -/
theorem and_opRsvMask_iff (w : Word) :
    w &&& 0xF0FE#16 = 0x1000#16 ↔ fieldOp w = 1 ∧ fieldRsv w = 0 := by
  have hop : w.extractLsb' 12 4 &&& 15#4 = w.extractLsb' 12 4 := BitVec.and_allOnes
  have hrsv : w.extractLsb' 1 7 &&& 127#7 = w.extractLsb' 1 7 := BitVec.and_allOnes
  simp [and_eq_iff_fields, fieldOp, fieldNote, fieldRsv, fieldV, hop, hrsv]

/-- Settles O3: an operation's word by its fields, and its fields by the mask; a reserved `OP` is
that of no operation's word. -/
theorem matchAndMaskOfEachOperation : Obligations.MatchAndMaskOfEachOperation := by
  intro w
  have hmask : w &&& 0xFFFF#16 = w := BitVec.and_allOnes
  simp only [decodeWord_eq_some_iff, hmask, and_opMask_iff, and_opRsvMask_iff]
  refine ⟨⟨?_, ?_⟩, ⟨?_, ?_⟩, ?_, ?_, ?_, ?_⟩
  · rintro ⟨low, -, henc⟩
    exact (encode_nop_eq_iff.1 henc).1
  · exact fun hop => ⟨fieldLow w, rfl, encode_nop_eq_iff.2 ⟨hop, rfl⟩⟩
  · rintro ⟨note, v, hnote, henc⟩
    obtain ⟨hop, rfl, hrsv, -⟩ := encode_setact_eq_iff.1 henc
    exact ⟨⟨hop, hrsv⟩, (noteLegal_fieldNote_iff w).1 hnote⟩
  · rintro ⟨⟨hop, hrsv⟩, hnote⟩
    exact ⟨_, _, (noteLegal_fieldNote_iff w).2 hnote, encode_setact_eq_iff.2 ⟨hop, rfl, hrsv, rfl⟩⟩
  · simp [Instr.wellFormed, encode, eq_comm]
  · simp [Instr.wellFormed, encode, eq_comm]
  · simp [Instr.wellFormed, encode, eq_comm]
  · intro hreserved
    refine Option.eq_none_iff_forall_ne_some.2 fun i hi => ?_
    have hmem := fieldOp_encode_mem i
    rw [(decodeWord_eq_some_iff.1 hi).2] at hmem
    simp only [List.mem_cons, List.not_mem_nil, or_false, fieldOp_eq_iff, BitVec.ofNat_eq_ofNat,
      BitVec.toNat_ofNat] at hmem
    omega

namespace Machine

/-! ## The assembler (R77, R78) -/

theorem eventOf_host {i : Instr} (h : i.isHost = true) : eventOf i = .hostCmd (encode i) := by
  simp [eventOf, eventOfWord, isEventFormat_encode, h]

/-- The word of `SETACT n, v` as R77 writes it. -/
theorem encode_setact_eq_or : ∀ (note : BitVec 4) (v : Bool),
    encode (.setact note v) =
      0x1000#16 ||| (note.setWidth 16 <<< 8) ||| (BitVec.ofBool v).setWidth 16 := by
  decide

theorem assembleSetact_of_legal {n v : Nat} (h : n ≤ 11 ∧ v ≤ 1) :
    assembleSetact n v = .ok [eventOf (.setact (BitVec.ofNat 4 n) (v == 1))] :=
  if_pos h

/-- Settles O7: in range, the event is the host word of the operation. -/
theorem assemblerWordsAndRefusals : Obligations.AssemblerWordsAndRefusals := by
  refine fun n v => ⟨fun h => ?_, fun h => if_neg h⟩
  have hnote : (BitVec.ofNat 4 n).setWidth 16 = BitVec.ofNat 16 n := by
    apply BitVec.eq_of_toNat_eq
    rw [BitVec.toNat_setWidth, BitVec.toNat_ofNat, BitVec.toNat_ofNat]
    omega
  have hvalue : (BitVec.ofBool (v == 1)).setWidth 16 = BitVec.ofNat 16 v := by
    obtain rfl | rfl : v = 0 ∨ v = 1 := by omega
    all_goals rfl
  refine (assembleSetact_of_legal h).trans ?_
  rw [eventOf_host rfl, encode_setact_eq_or, hnote, hvalue]

/-- A program whose lines are one event each is those events, in order. -/
theorem assemble_map {α : Type} {line : α → AsmLine} {event : α → Event} {l : List α}
    (h : ∀ a ∈ l, assembleLine (line a) = .ok [event a]) :
    assemble (l.map line) = .ok (l.map event) := by
  induction l with
  | nil => rfl
  | cons a l ih =>
    obtain ⟨ha, hl⟩ := List.forall_mem_cons.1 h
    simp [assemble, ha, ih hl]

theorem assemble_replicate {line : AsmLine} {event : Event} (h : assembleLine line = .ok [event])
    (k : Nat) : assemble (List.replicate k line) = .ok (List.replicate k event) := by
  simpa using assemble_map (l := List.replicate k ()) fun _ _ => h

theorem assemble_setacts_off :
    assemble (voices.map fun n => .setact n.val 0) =
      .ok (voices.map fun n => eventOf (.setact (BitVec.ofNat 4 n.val) false)) :=
  assemble_map fun n _ => assembleSetact_of_legal ⟨by omega, by omega⟩

/-- Settles O8: every line of an expansion is one event, so the events are the lines' in order. -/
theorem pseudoInstructionsExpand : Obligations.PseudoInstructionsExpand := by
  refine ⟨fun _ => rfl, fun _ => rfl, assemble_setacts_off.symm, fun k => ?_, fun k => ?_, ?_⟩
  · exact (assemble_replicate rfl k).symm
  · exact (assemble_replicate rfl k).symm
  · have hslots := assemble_replicate (line := .genslot) rfl 128
    simp only [assemble, hslots]
    rfl

/-- Settles O6: the decoders and the encoder evaluated on the words of the table. -/
theorem encodingExamples : Obligations.EncodingExamples := by
  unfold Obligations.EncodingExamples
  decide

/-- Settles O10: such a word meets neither clause of the host decoder. -/
theorem ignoredHostWordsActAsNop : Obligations.IgnoredHostWordsActAsNop := by
  intro s w rest hc hq hw
  have hd : decodeHost w = .ignored w := by
    have h0 : ¬ w.toNat / 4096 = 0 := by omega
    exact decodeHost_ignored (mt (fieldOp_eq_iff w 0).1 h0) (mt (setactFields_iff w).1 (by omega))
  have hstep : step s = .next { s with queue := rest } :=
    (step_placed hc hq).trans (State.takeHostCmd_ignored hd _)
  exact ⟨hd, fun low h => (nomatch hd.symm.trans h), hstep, fun low => hstep⟩

/-- Settles O20: the note names no voice. -/
theorem setactOfNoVoiceChangesNothing : Obligations.SetactOfNoVoiceChangesNothing :=
  fun _ _ v hnote => execSetact_noVoice (noteVoice_ge hnote.not_gt) v

end Machine
end Sys2Proof
end

section
/-!
SUPPORT. The host's operations (40_oscillator_bank.md): `NOP`, `SETACT`, and what a host word can do
(R100, R101, R102, R106, R107).
-/
namespace Sys2Proof.Machine

/-! ## Writes of one active flag (R102) -/

/-- Two states that differ from `s` in the flags only are the same if every flag is. -/
theorem State.eq_of_isActive_eq {s t u : State} (ht : t = { s with act := t.act })
    (hu : u = { s with act := u.act }) (h : ∀ j, isActive t.act j = isActive u.act j) : t = u := by
  rw [ht, hu, flags_ext h]

/-- R106: a write of the value held changes nothing. -/
@[simp] theorem State.setActive_held (s : State) (j : Voice) :
    s.setActive j (isActive s.act j) = s := by
  refine State.eq_of_isActive_eq (s := s) rfl rfl fun i => ?_
  rw [State.setActive_isActive]
  split_ifs with hi
  · rw [hi]
  · rfl

/-- R107: of two writes to one voice the later stays. -/
@[simp] theorem State.setActive_setActive_same (s : State) (j : Voice) (v w : Bool) :
    (s.setActive j v).setActive j w = s.setActive j w := by
  refine State.eq_of_isActive_eq (s := s) rfl rfl fun i => ?_
  simp only [State.setActive_isActive]
  split_ifs <;> rfl

/-- R107: writes to different voices commute. -/
theorem State.setActive_comm (s : State) {j k : Voice} (h : j ≠ k) (v w : Bool) :
    (s.setActive j v).setActive k w = (s.setActive k w).setActive j v := by
  refine State.eq_of_isActive_eq (s := s) rfl rfl fun i => ?_
  simp only [State.setActive_isActive]
  by_cases hj : i = j
  · rw [if_pos hj, if_pos hj, if_neg (hj ▸ h)]
  · rw [if_neg hj, if_neg hj]

/-! ## `NOP` and `SETACT` -/

/-- Settles O18: a word with `OP` 0 decodes to `NOP` with its own low bits. -/
theorem nopChangesNothing : Obligations.NopChangesNothing :=
  fun s w hop => ⟨fieldLow w, decodeHost_nop ((fieldOp_eq_iff w 0).2 hop), execNop_eq _ s⟩

theorem noteVoice_ofNat (c : Config) (j : Voice) : noteVoice c (BitVec.ofNat 4 j.val) = some j := by
  have hj : (BitVec.ofNat 4 j.val).toNat = j.val := by
    rw [BitVec.toNat_ofNat]
    omega
  rw [noteVoice_lt (hj.trans_lt j.isLt)]
  exact congrArg some (Fin.ext hj)

/-- A note of 0 to 11 is the number of a voice. -/
theorem exists_voice_of_note {note : BitVec 4} (h : note.toNat ≤ 11) :
    ∃ j : Voice, note = BitVec.ofNat 4 j.val :=
  ⟨⟨note.toNat, Nat.lt_succ_of_le h⟩, by rw [BitVec.ofNat_toNat, BitVec.setWidth_eq]⟩

theorem execSetact_ofNat (s : State) (j : Voice) (v : Bool) :
    exec (.setact (BitVec.ofNat 4 j.val) v) s = .next (s.setActive j v) :=
  execSetact_voice (noteVoice_ofNat s.cfg j) v

/-- Settles O19: the note is a voice's, and `setActive` writes that voice's flag. -/
theorem setactWritesOneFlag : Obligations.SetactWritesOneFlag := by
  intro s note v hnote
  have hvoice := noteVoice_lt (c := s.cfg) (Nat.lt_succ_of_le hnote)
  refine ⟨_, execSetact_voice hvoice v, fun j => ?_, rfl⟩
  simp only [State.setActive_isActive, Fin.ext_iff]

/-- Settles O21: the write of the value held is no write. -/
theorem setactOfHeldValueIsNop : Obligations.SetactOfHeldValueIsNop := by
  intro s j low
  rw [execSetact_ofNat, State.setActive_held, execNop_eq]

/-- Settles O22: each step is the write of one voice's flag. -/
theorem setactStepsOverwriteOrCommute : Obligations.SetactStepsOverwriteOrCommute := by
  intro s n m v w hn hm
  obtain ⟨j, rfl⟩ := exists_voice_of_note hn
  obtain ⟨k, rfl⟩ := exists_voice_of_note hm
  refine ⟨_, _, _, _, execSetact_ofNat s j v, execSetact_ofNat s k w, execSetact_ofNat _ k w,
    execSetact_ofNat _ j v, fun heq => ?_, fun hne => ?_⟩
  · have hjk := congrArg (noteVoice s.cfg) heq
    rw [noteVoice_ofNat, noteVoice_ofNat, Option.some_inj] at hjk
    rw [hjk, State.setActive_setActive_same]
  · exact s.setActive_comm (fun hjk => hne (by rw [hjk])) v w

/-! ## Host words (R100, R163) -/

/-- A host operation has a next state whatever the state, and writes at most the active flags. -/
theorem exec_host {i : Instr} (h : i.isHost = true) (s : State) :
    ∃ A, exec i s = .next { s with act := A } := by
  cases i with
  | nop low => exact ⟨s.act, rfl⟩
  | setact note v =>
    cases hv : noteVoice s.cfg note with
    | some j => exact ⟨_, execSetact_voice hv v⟩
    | none => exact ⟨s.act, execSetact_noVoice hv v⟩
  | tick => cases h
  | arbstart => cases h
  | genslot => cases h

/-- A word on the host port has a next state and writes at most the active flags: it is ignored, or
it names a host operation. -/
theorem State.takeHostCmd_next (s : State) (w : Word) :
    ∃ A, s.takeHostCmd w = .next { s with act := A } := by
  by_cases hr : s.rst = true
  · exact ⟨s.act, if_pos hr⟩
  · cases hd : decodeHost w with
    | ignored u => exact ⟨s.act, State.takeHostCmd_ignored hd s⟩
    | op i =>
      obtain ⟨-, hhost, -⟩ := decodeHost_eq_op_iff.1 hd
      obtain ⟨A, hA⟩ := exec_host hhost s
      exact ⟨A, (State.take_hostCmd (Bool.eq_false_of_not_eq_true hr) hd).trans hA⟩

/-- Settles O50: a placed host word is taken on the host port, whatever its bits. -/
theorem hostWordsTouchOnlyTheFlags : Obligations.HostWordsTouchOnlyTheFlags := by
  intro s w rest hc hq
  obtain ⟨A, hA⟩ := State.takeHostCmd_next { s with queue := rest } w
  exact ⟨_, (step_placed hc hq).trans hA, rfl⟩

end Sys2Proof.Machine
end

section
/-!
SUPPORT. Phase arithmetic (41_sample_generator.md R115, R116, R118, R125): where `rne32` is exact, the
wrap subtraction, one advance of a phase in cycle, and the advances of an integer step.
-/
namespace Sys2Proof.Machine

/-! ## Where `rne32` is exact -/

/-- A number below `2 ^ (24 + k)` needs at most `k` bits dropped. -/
theorem dropBits_le {n k : Nat} (h : n < 2 ^ 24 * 2 ^ k) : dropBits n ≤ k := by
  by_cases hn : n = 0
  · subst hn; exact Nat.zero_le k
  · have := (Nat.log2_lt hn).2 (h.trans_eq (Nat.pow_add ..).symm)
    unfold dropBits
    omega

theorem nearestEven_mul_of_dvd {n d : Nat} (h : 2 ^ d ∣ n) : nearestEven n d * 2 ^ d = n := by
  have hpos : 0 < 2 ^ d := by positivity
  have hmod : n % 2 ^ d = 0 := Nat.mod_eq_zero_of_dvd h
  rcases nearestEven_cases n d with ⟨hdown, -⟩ | ⟨-, hhalf, -⟩
  · rw [hdown, Nat.div_mul_cancel h]
  · omega

/-- A whole multiple of `2 ^ k` whose quotient has at most 24 bits is a binary32 value. -/
theorem f32Units_rne32_of_eq {z : Int} {q k : Nat} (hz : z.natAbs = q * 2 ^ k) (hq : q < 2 ^ 24)
    (hmax : z.natAbs ≤ f32MaxMagnitude) : f32Units (rne32 z) = z := by
  have hdrop : dropBits z.natAbs ≤ k :=
    dropBits_le (hz ▸ Nat.mul_lt_mul_of_pos_right hq (by positivity))
  have hdvd : 2 ^ dropBits z.natAbs ∣ z.natAbs :=
    (Nat.pow_dvd_pow 2 hdrop).trans (hz ▸ Nat.dvd_mul_left ..)
  rw [(rne32_spec hmax).2.1, nearestEven_mul_of_dvd hdvd]
  split <;> omega

/-- Rounding does not pass a bound that is itself a binary32 value. -/
theorem f32Units_rne32_le {n q k : Nat} (hn : n ≤ q * 2 ^ k) (hq : q < 2 ^ 24)
    (hmax : n ≤ f32MaxMagnitude) : f32Units (rne32 n) ≤ ((q * 2 ^ k : Nat) : Int) := by
  have hdrop : dropBits n ≤ k :=
    dropBits_le (hn.trans_lt (Nat.mul_lt_mul_of_pos_right hq (by positivity)))
  have hsplit : q * 2 ^ k = q * 2 ^ (k - dropBits n) * 2 ^ dropBits n := by
    rw [Nat.mul_assoc, ← Nat.pow_add, Nat.sub_add_cancel hdrop]
  have hsig := nearestEven_le (hsplit ▸ hn)
  rw [(rne32_spec (z := n) hmax).2.1, if_neg (by omega), hsplit, Int.natAbs_natCast]
  exact_mod_cast Nat.mul_le_mul_right _ hsig

theorem f32Negative_rne32 {z : Int} (h : 0 ≤ z) : f32Negative (rne32 z) = false := by
  have hinf : min (roundMagnitude z.natAbs) f32InfinityBits < 2 ^ 31 :=
    (Nat.min_le_right ..).trans_lt (by decide)
  have hbits : (rne32 z).toNat = min (roundMagnitude z.natAbs) f32InfinityBits := by
    simp only [rne32, if_neg (Int.not_lt.2 h), BitVec.toNat_ofNat]
    omega
  rw [f32Negative_eq, hbits]
  exact decide_eq_false (Nat.not_le.2 hinf)

/-! ## Values in units of 1.0 -/

theorem f32Units_tableSize : f32Units f32TableSize = 256 * unitsOfOne := by decide +kernel

theorem atLeastTableSize_iff (p : F32) :
    atLeastTableSize p = true ↔ 256 * (unitsOfOne : Int) ≤ f32Units p := by
  rw [atLeastTableSize, f32AtLeast, f32Units_tableSize, decide_eq_true_iff]

/-- A value compared with a whole number, counted in units. -/
theorem f32Value_lt_natCast_iff (b : F32) (n : Nat) :
    f32Value b < n ↔ f32Units b < n * unitsOfOne := by
  rw [f32Value, div_lt_iff₀ (by positivity), unitsOfOne]
  exact_mod_cast Iff.rfl

theorem natCast_le_f32Value_iff (b : F32) (n : Nat) :
    n ≤ f32Value b ↔ n * unitsOfOne ≤ f32Units b := by
  simpa only [not_lt] using not_congr (f32Value_lt_natCast_iff b n)

theorem f32Value_eq_natCast_iff (b : F32) (n : Nat) :
    f32Value b = n ↔ f32Units b = n * unitsOfOne := by
  rw [f32Value, div_eq_iff (by positivity), unitsOfOne]
  exact_mod_cast Iff.rfl

theorem f32Units_nonneg {b : F32} (h : f32Negative b = false) : 0 ≤ f32Units b := by
  rw [f32Units_of_nonneg h]
  exact Int.natCast_nonneg _

/-- 512.0 is far from overflow. -/
theorem twoCycles_le_max : 512 * unitsOfOne ≤ f32MaxMagnitude := by decide +kernel

/-! ## The wrap subtraction (R116) -/

/-- From 256.0 up to 512.0 all values are multiples of `2 ^ 134` units, and so is 256.0. -/
theorem f32Units_sub_tableSize {p : F32} (hlo : 256 * (unitsOfOne : Int) ≤ f32Units p)
    (hhi : f32Units p < 512 * unitsOfOne) :
    f32Units (f32Sub p f32TableSize) = f32Units p - 256 * unitsOfOne := by
  have hone : unitsOfOne = 2 ^ 149 := rfl
  have hmag : (f32Magnitude p : Int) = f32Units p := by rw [← natAbs_f32Units]; omega
  obtain ⟨s, k, hs, hsk⟩ := f32Magnitude_eq_mul_pow p
  have hk : 134 ≤ k := by
    by_contra hlt
    have : s * 2 ^ k ≤ (2 ^ 24 - 1) * 2 ^ 133 :=
      Nat.mul_le_mul (by omega) (Nat.pow_le_pow_right (by decide) (by omega))
    omega
  obtain ⟨i, rfl⟩ := Nat.exists_eq_add_of_le' hk
  rw [Nat.pow_add, ← Nat.mul_assoc] at hsk
  rw [f32Sub, f32Units_tableSize]
  refine f32Units_rne32_of_eq (q := s * 2 ^ i - 2 ^ 23) (k := 134) ?_ ?_ ?_
  · omega
  · omega
  · have hmax := twoCycles_le_max
    omega

/-- Settles O33: the statement counted in units is `f32Units_sub_tableSize`. -/
theorem wrapSubtractionIsExact : Obligations.WrapSubtractionIsExact := by
  intro p _ hlo hhi
  have hlo' := (natCast_le_f32Value_iff p 256).1 hlo
  have hhi' := (f32Value_lt_natCast_iff p 512).1 hhi
  have hsub : f32Value (f32Sub p f32TableSize) = f32Value p - 256 := by
    rw [f32Value, f32Units_sub_tableSize hlo' hhi', f32Value, unitsOfOne]
    push_cast
    ring
  exact hsub

/-! ## One advance (R115, R118) -/

/-- The largest value in cycle is one unit in the last place below 256.0. -/
theorem f32Units_le_of_inCycle {p : F32} (h : inCycle p = true) :
    f32Units p ≤ ((2 ^ 24 - 1) * 2 ^ 133 : Nat) := by
  obtain ⟨-, -, hlt⟩ := (inCycle_iff p).1 h
  have hone : unitsOfOne = 2 ^ 149 := rfl
  have := gap_of_natAbs_eq (natAbs_f32Units p) (q := 2 ^ 24 - 1) (d := 133) (.inr (by decide))
  omega

/-- The exact sum of two values in cycle, and the bound it keeps to when rounded. -/
theorem f32Units_add_inCycle {p d : F32} (hp : inCycle p = true) (hd : inCycle d = true) :
    ∃ n : Nat, f32Units p + f32Units d = n ∧ n ≤ (2 ^ 24 - 1) * 2 ^ 134 ∧ n ≤ f32MaxMagnitude := by
  have hp0 := f32Units_nonneg ((inCycle_iff p).1 hp).2.1
  have hd0 := f32Units_nonneg ((inCycle_iff d).1 hd).2.1
  have hp1 := f32Units_le_of_inCycle hp
  have hd1 := f32Units_le_of_inCycle hd
  have hmax : (2 ^ 24 - 1) * 2 ^ 134 ≤ f32MaxMagnitude := by decide +kernel
  exact ⟨(f32Units p + f32Units d).toNat, by omega, by omega, by omega⟩

/-- The rounded sum of two values in cycle is finite, not negative and below 512.0. -/
theorem f32Add_inCycle {p d : F32} (hp : inCycle p = true) (hd : inCycle d = true) :
    f32Finite (f32Add p d) = true ∧ f32Negative (f32Add p d) = false ∧
      f32Units (f32Add p d) < 512 * unitsOfOne := by
  obtain ⟨n, hsum, hn, hmax⟩ := f32Units_add_inCycle hp hd
  have hbound : (((2 ^ 24 - 1) * 2 ^ 134 : Nat) : Int) < 512 * unitsOfOne := by decide +kernel
  rw [f32Add, hsum]
  exact ⟨(rne32_spec (z := n) hmax).1, f32Negative_rne32 (Int.natCast_nonneg n),
    (f32Units_rne32_le hn (by decide) hmax).trans_lt hbound⟩

/-- R118: an advance by a legal step stays in cycle. -/
theorem inCycle_advancePhase (c : Config) {p d : F32} (hp : inCycle p = true)
    (hd : inCycle d = true) : inCycle (advancePhase c p d) = true := by
  obtain ⟨hfin, hneg, hlt⟩ := f32Add_inCycle hp hd
  rw [advancePhase_eq]
  split_ifs with hwrap
  · have hle := (atLeastTableSize_iff _).1 hwrap
    have hmax := twoCycles_le_max
    have hunits := f32Units_sub_tableSize hle hlt
    refine (inCycle_iff _).2 ⟨(rne32_spec ?_).1, f32Negative_rne32 ?_, ?_⟩
    · rw [f32Units_tableSize]; omega
    · rw [f32Units_tableSize]; omega
    · omega
  · rw [atLeastTableSize_iff] at hwrap
    exact (inCycle_iff _).2 ⟨hfin, hneg, Int.not_le.1 hwrap⟩

/-- Settles O34: both bounds come from the rounded sum, `f32Add_inCycle`. -/
theorem advanceKeepsAPhaseInCycle : Obligations.AdvanceKeepsAPhaseInCycle := by
  intro c p d hp hd
  obtain ⟨-, -, hlt⟩ := f32Add_inCycle hp hd
  exact ⟨(f32Value_lt_natCast_iff _ 512).2 hlt, inCycle_advancePhase c hp hd⟩

/-! ## Integer steps (R125) -/

/-- A phase in cycle whose value is the whole number `k`. -/
def PhaseIs (p : F32) (k : Nat) : Prop := inCycle p = true ∧ f32Value p = k

theorem PhaseIs.lt {p : F32} {k : Nat} (h : PhaseIs p k) : k < 256 := by
  obtain ⟨-, -, -, hlt⟩ := (inCycle_iff_value p).1 h.1
  rw [h.2] at hlt
  exact_mod_cast hlt

theorem phaseIs_zero : PhaseIs 0x00000000#32 0 := by
  refine ⟨by decide +kernel, (f32Value_eq_natCast_iff _ 0).2 (by decide +kernel)⟩

theorem PhaseIs.floor {p : F32} {k : Nat} (h : PhaseIs p k) : f32Floor p = k := by
  rw [f32Floor, (f32Value_eq_natCast_iff p k).1 h.2, Int.mul_ediv_cancel _ (by decide +kernel)]
  exact Int.toNat_natCast k

/-- Only the pattern `+0.0` is 0 in cycle. -/
theorem PhaseIs.eq_zero {p : F32} (h : PhaseIs p 0) : p = 0x00000000#32 := by
  obtain ⟨-, hneg, -⟩ := (inCycle_iff p).1 h.1
  have hunits := (f32Value_eq_natCast_iff p 0).1 h.2
  rw [f32Units_of_nonneg hneg] at hunits
  have hexp := f32Exponent_eq p
  have hfrac := f32Fraction_eq p
  have hsign : ¬ 2 ^ 31 ≤ p.toNat := by simpa [f32Negative_eq] using hneg
  have hmag : f32Magnitude p = 0 := by omega
  have hexp0 : f32Exponent p = 0 := by
    by_contra hne
    rw [f32Magnitude_of_normal hne] at hmag
    exact absurd hmag (by positivity)
  rw [f32Magnitude, if_pos hexp0] at hmag
  refine BitVec.eq_of_toNat_eq ?_
  rw [BitVec.toNat_ofNat]
  omega

/-- Sums of whole numbers in cycle are exact. -/
theorem PhaseIs.add {p d : F32} {k n : Nat} (hp : PhaseIs p k) (hd : PhaseIs d n) :
    f32Value (f32Add p d) = (k + n : Nat) := by
  have hk := hp.lt
  have hn := hd.lt
  have hmax : 512 * 2 ^ 149 ≤ f32MaxMagnitude := twoCycles_le_max
  have hsum : f32Units p + f32Units d = (((k + n) * 2 ^ 149 : Nat) : Int) := by
    rw [(f32Value_eq_natCast_iff p k).1 hp.2, (f32Value_eq_natCast_iff d n).1 hd.2, unitsOfOne]
    push_cast
    ring
  rw [f32Value_eq_natCast_iff, f32Add, hsum, ← Nat.cast_mul]
  exact f32Units_rne32_of_eq (Int.natAbs_natCast _) (by omega) (by omega)

/-- R116: an advance by a whole number is an addition modulo 256. -/
theorem PhaseIs.advance (c : Config) {p d : F32} {k n : Nat} (hp : PhaseIs p k) (hd : PhaseIs d n) :
    PhaseIs (advancePhase c p d) ((k + n) % 256) := by
  have hk := hp.lt
  have hn := hd.lt
  have hunits := (f32Value_eq_natCast_iff _ _).1 (hp.add hd)
  have hone : (unitsOfOne : Int) = 2 ^ 149 := rfl
  refine ⟨inCycle_advancePhase c hp.1 hd.1, ?_⟩
  simp only [f32Value_eq_natCast_iff, advancePhase_eq, atLeastTableSize_iff]
  split_ifs with hwrap
  · rw [f32Units_sub_tableSize hwrap (by rw [hunits, hone]; omega)]
    rw [hunits, hone] at *
    omega
  · rw [hunits, hone] at *
    omega

theorem PhaseIs.iterate_advance (c : Config) {p d : F32} {k : Nat} (hp : PhaseIs p 0)
    (hd : PhaseIs d k) (n : Nat) :
    PhaseIs ((fun p => advancePhase c p d)^[n] p) (n * k % 256) := by
  induction n with
  | zero => simpa using hp
  | succ n ih =>
    rw [Function.iterate_succ_apply']
    convert ih.advance c hd using 1
    rw [Nat.mod_add_mod, Nat.add_one_mul]

/-- Settles O35: the phase after `n` advances is `n * d mod 256`, which is 0 at `256 / d` and not
before. -/
theorem integerStepReturnsToZero : Obligations.IntegerStepReturnsToZero := by
  intro c step d hstep hd hval
  have hphase := phaseIs_zero.iterate_advance c (d := step) ⟨hstep, hval⟩
  refine ⟨fun n => ⟨_, rfl, (hphase n).2, (hphase n).floor, ?_⟩, ?_, fun n hpos hlt hzero => ?_⟩
  · rw [(hphase n).add ⟨hstep, hval⟩, (hphase n).2, Nat.cast_add]
  · refine PhaseIs.eq_zero ?_
    convert hphase (256 / d) using 1
    rw [Nat.div_mul_cancel hd]
  · have hdpos := Nat.pos_of_dvd_of_pos hd (by decide)
    have hmul := (Nat.lt_div_iff_mul_lt_of_dvd hdpos.ne' hd).1 hlt
    have hfloor := (hphase n).floor
    rw [hzero, phaseIs_zero.floor, Nat.mod_eq_of_lt hmul] at hfloor
    exact absurd hfloor (Nat.mul_pos hpos hdpos).ne

end Sys2Proof.Machine
end

section
/-!
SUPPORT. `GENSLOT` (41_sample_generator.md R110 to R120): the active set as a finite set, which voices
have a table word, the sample and the phases of a slot, and the good states (R118, R119).
-/
namespace Sys2Proof.Machine

/-! ## The active set (R111, R112) -/

theorem mem_activeSet {A : BitVec 12} {j : Voice} : j ∈ activeSet A ↔ isActive A j = true := by
  simp [activeSet, isActive]

theorem mem_activeVoices {A : BitVec 12} {j : Voice} : j ∈ activeVoices A ↔ j ∈ activeSet A := by
  simp [activeVoices, mem_voices, mem_activeSet]

/-- The active voices are listed in index order. -/
theorem activeVoices_pairwise (A : BitVec 12) : (activeVoices A).Pairwise (· < ·) :=
  List.Pairwise.filter _ (show voices.Pairwise (· < ·) by decide)

theorem activeVoices_nodup (A : BitVec 12) : (activeVoices A).Nodup :=
  (activeVoices_pairwise A).imp ne_of_lt

theorem activeVoices_toFinset (A : BitVec 12) : (activeVoices A).toFinset = activeSet A := by
  ext j
  rw [List.mem_toFinset, mem_activeVoices]

theorem popcount_eq_card (A : BitVec 12) : popcount A = (activeSet A).card := by
  rw [popcount, ← activeVoices_toFinset, List.toFinset_card_of_nodup (activeVoices_nodup A)]

theorem mixSum_eq_sum (phase : Vector F32 12) (A : BitVec 12) :
    mixSum phase A = ∑ j ∈ activeSet A, ((voiceWord phase[j]).getD 0).toNat := by
  rw [mixSum, ← activeVoices_toFinset, List.sum_toFinset _ (activeVoices_nodup A)]

/-! ## Table words (R113, R54) -/

theorem voiceWord_of_inCycle {p : F32} (h : inCycle p = true) :
    voiceWord p = tableRead (f32Floor p) :=
  if_pos h

theorem voiceWord_isNone_eq (p : F32) : (voiceWord p).isNone = !inCycle p := by
  cases h : inCycle p with
  | false => simp [voiceWord, h]
  | true =>
    obtain ⟨-, -, -, hsome⟩ := floorOfAPhaseIsATableAddress p h
    rw [voiceWord_of_inCycle h, Option.isNone_eq_false_iff.2 hsome]
    rfl

theorem voiceWord_getD_le (p : F32) : ((voiceWord p).getD 0).toNat ≤ 4094 := by
  cases h : voiceWord p with
  | none => decide
  | some v =>
    have hp : inCycle p = true := by simpa [h] using voiceWord_isNone_eq p
    exact tableRead_le ((voiceWord_of_inCycle hp).symm.trans h)

theorem unreadableVoice_eq_none_iff {phase : Vector F32 12} {A : BitVec 12} :
    unreadableVoice phase A = none ↔ ∀ j ∈ activeSet A, inCycle phase[j] = true := by
  simp [unreadableVoice, voiceWord_isNone_eq, mem_activeVoices]

/-- The voice named is the lowest active one out of cycle. -/
theorem unreadableVoice_eq_some {phase : Vector F32 12} {A : BitVec 12} {j : Voice}
    (hj : j ∈ activeSet A) (hbad : inCycle phase[j] = false)
    (hlow : ∀ k ∈ activeSet A, k < j → inCycle phase[k] = true) :
    unreadableVoice phase A = some j := by
  obtain ⟨below, above, hsplit⟩ := List.append_of_mem (mem_activeVoices.2 hj)
  refine List.find?_eq_some_iff_append.2 ⟨?_, below, above, hsplit, fun k hk => ?_⟩
  · rw [voiceWord_isNone_eq, hbad]
    rfl
  · have hsorted := activeVoices_pairwise A
    rw [hsplit, List.pairwise_append] at hsorted
    have hkj := hsorted.2.2 k hk j List.mem_cons_self
    have hkA : k ∈ activeVoices A := hsplit ▸ List.mem_append_left _ hk
    rw [voiceWord_isNone_eq, hlow k (mem_activeVoices.1 hkA) hkj]
    rfl

/-! ## The sample of a slot (R117, R119, R120) -/

/-- The quotient is at most the largest table word, since no term of the sum is above it. -/
theorem mixSum_div_le (phase : Vector F32 12) (A : BitVec 12) :
    mixSum phase A / (activeSet A).card ≤ 4094 := by
  rw [mixSum_eq_sum]
  exact Nat.div_le_of_le_mul (Finset.sum_le_card_nsmul _ _ _ fun j _ => voiceWord_getD_le phase[j])

theorem mixSample_of_silent (c : Config) (phase : Vector F32 12) {A : BitVec 12}
    (h : (activeSet A).card = 0) : (mixSample c phase A).toNat = 2047 := by
  simp [mixSample, popcount_eq_card, h]

/-- With a voice active the sample is the quotient; a division by 1 is none. -/
theorem mixSample_of_active (c : Config) (phase : Vector F32 12) {A : BitVec 12}
    (h : (activeSet A).card ≠ 0) :
    (mixSample c phase A).toNat = mixSum phase A / (activeSet A).card := by
  have hle := mixSum_div_le phase A
  have hone : (if 1 < (activeSet A).card then mixSum phase A / (activeSet A).card
      else mixSum phase A) = mixSum phase A / (activeSet A).card := by
    split_ifs with hmany
    · rfl
    · rw [show (activeSet A).card = 1 by omega, Nat.div_one]
  rw [mixSample, popcount_eq_card, if_neg h, hone, BitVec.toNat_ofNat]
  exact Nat.mod_eq_of_lt (by omega)

/-- R119. -/
theorem mixSample_le (c : Config) (phase : Vector F32 12) (A : BitVec 12) :
    (mixSample c phase A).toNat ≤ 4094 := by
  by_cases h : (activeSet A).card = 0
  · rw [mixSample_of_silent c phase h]
    decide
  · rw [mixSample_of_active c phase h]
    exact mixSum_div_le phase A

/-- R124: one voice alone gives its table word, undivided. -/
theorem tableRead_of_one_voice (c : Config) {phase : Vector F32 12} {A : BitVec 12} {m : Voice}
    (hA : activeSet A = {m}) (hp : inCycle phase[m] = true) :
    tableRead (f32Floor phase[m]) = some (mixSample c phase A) := by
  obtain ⟨-, -, -, hsome⟩ := floorOfAPhaseIsATableAddress _ hp
  obtain ⟨v, hv⟩ := Option.isSome_iff_exists.1 hsome
  have hsum : mixSum phase A = v.toNat := by
    rw [mixSum_eq_sum, hA, Finset.sum_singleton, voiceWord_of_inCycle hp, hv, Option.getD_some]
  have hmix := mixSample_of_active c phase (A := A) (by simp [hA])
  rw [hsum, hA, Finset.card_singleton, Nat.div_one] at hmix
  rw [hv, BitVec.eq_of_toNat_eq hmix]

/-! ## The phases after a slot (R115) -/

theorem advancePhases_active (c : Config) (phase : Vector F32 12) {A : BitVec 12} {j : Voice}
    (h : j ∈ activeSet A) : (advancePhases c phase A)[j] = advancePhase c phase[j] c.phaseStep[j] :=
  (Vector.getElem_ofFn j.isLt).trans (if_pos (mem_activeSet.1 h))

theorem advancePhases_inactive (c : Config) (phase : Vector F32 12) {A : BitVec 12} {j : Voice}
    (h : j ∉ activeSet A) : (advancePhases c phase A)[j] = phase[j] :=
  (Vector.getElem_ofFn j.isLt).trans (if_neg (mt mem_activeSet.2 h))

/-! ## One slot -/

@[simp] theorem State.genSlot_phase (s : State) :
    s.genSlot.phase = advancePhases s.cfg s.phase s.act := by
  rw [State.genSlot_frame]

@[simp] theorem State.genSlot_buf (s : State) :
    s.genSlot.buf = Memory.insert s.buf (slotAt s.cfg s.genHalf s.genIdx).toNat
      (mixSample s.cfg s.phase s.act) := by
  rw [State.genSlot_frame]

theorem State.genSlot_bufRead_same (s : State) :
    s.genSlot.bufRead (slotAt s.cfg s.genHalf s.genIdx) = mixSample s.cfg s.phase s.act := by
  rw [State.bufRead, State.genSlot_buf, Memory.find_insert_same, Option.getD_some]

theorem State.genSlot_bufRead_other (s : State) {a : Slot}
    (h : a ≠ slotAt s.cfg s.genHalf s.genIdx) : s.genSlot.bufRead a = s.bufRead a := by
  have hne : a.toNat ≠ (slotAt s.cfg s.genHalf s.genIdx).toNat := mt BitVec.eq_of_toNat_eq h
  rw [State.bufRead, State.genSlot_buf, Memory.find_insert_other _ _ hne, State.genSlot_frame]
  rfl

/-- The slot counter and `gen_busy` after a slot: the 128th ends the refill (R121). -/
theorem State.genSlot_position (s : State) :
    s.genSlot.genIdx.toNat = (s.genIdx.toNat + 1) % 128 ∧
      s.genSlot.genBusy = (s.genBusy && decide (s.genIdx.toNat ≠ 127)) := by
  have hlast : s.genIdx = 127#7 ↔ s.genIdx.toNat = 127 := BitVec.toNat_inj.symm
  rw [State.genSlot_frame]
  simp only [hlast, ne_eq, and_true]
  split_ifs with h
  · rw [h]
    rfl
  · exact BitVec.toNat_add ..

/-- Where a refill is in progress and the active phases are in cycle, `GENSLOT` has a next state. -/
theorem execGenslot_next {s : State} (hb : s.genBusy = true) (hc : configLegal s.cfg = true)
    (hp : ∀ j ∈ activeSet s.act, inCycle s.phase[j] = true) : exec .genslot s = .next s.genSlot :=
  execGenslot_ready hb hc (unreadableVoice_eq_none_iff.2 hp)

/-- What a `GENSLOT` that answers a next state answers. -/
theorem execGenslot_inv {s t : State} (h : exec .genslot s = .next t) : t = s.genSlot := by
  rcases exec_cases h with ⟨_, _, hop⟩ | ⟨_, _, hop, _⟩ | ⟨hop, -⟩ | ⟨hop, -⟩ | ⟨-, -, -, -, ht⟩
  · cases hop
  · cases hop
  · cases hop
  · cases hop
  · exact ht

/-- Settles O26: the slot holds `mixSample`, whose words are those at the integer parts of the phases. -/
theorem genslotWritesTheMixedSample : Obligations.GenslotWritesTheMixedSample := by
  intro s hb hc hp
  have hsum : ∑ j ∈ activeSet s.act, ((tableRead (f32Floor s.phase[j])).getD 0).toNat =
      mixSum s.phase s.act := by
    rw [mixSum_eq_sum]
    exact Finset.sum_congr rfl fun j hj => by rw [voiceWord_of_inCycle (hp j hj)]
  refine ⟨_, execGenslot_next hb hc hp, ?_⟩
  rw [s.genSlot_bufRead_same, hsum]
  split_ifs with hnone hone
  · exact mixSample_of_silent _ _ hnone
  · rw [mixSample_of_active _ _ hnone, hone, Nat.div_one]
  · exact mixSample_of_active _ _ hnone

/-- Settles O27: the comparison with 256.0 decides the wrap (`advancePhase_eq`). -/
theorem genslotAdvancesActivePhases : Obligations.GenslotAdvancesActivePhases := by
  intro s hb hc hp
  refine ⟨_, execGenslot_next hb hc hp, fun j => ⟨fun hj => ?_, fun hj => ?_⟩⟩
  · rw [s.genSlot_phase, advancePhases_active s.cfg s.phase hj]
    simp only [advancePhase_eq, atLeastTableSize_iff]
    refine ⟨fun hlt => if_neg ?_, fun hge => if_pos ?_⟩
    · exact Int.not_le.2 ((f32Value_lt_natCast_iff _ 256).1 hlt)
    · exact (natCast_le_f32Value_iff _ 256).1 hge
  · rw [s.genSlot_phase]
    exact advancePhases_inactive s.cfg s.phase hj

/-- Settles O28, from the frame of a slot and its next position. -/
theorem genslotPositionAndFrame : Obligations.GenslotPositionAndFrame := by
  intro s hb hc hp
  obtain ⟨hidx, hbusy⟩ := s.genSlot_position
  rw [hb, Bool.true_and] at hbusy
  have hlt := s.genIdx.isLt
  refine ⟨_, execGenslot_next hb hc hp, slotAt_toNat _ _ _, fun _ => s.genSlot_bufRead_other,
    fun hlast => ?_, fun hmore => ?_, ?_⟩
  · rw [hidx, hbusy, hlast]
    decide
  · rw [hidx, hbusy]
    exact ⟨Nat.mod_eq_of_lt (by omega), decide_eq_true hmore⟩
  · rw [State.genSlot_frame]

/-- Settles O29: what is written is a `mixSample`. -/
theorem genslotNeverWritesAbove4094 : Obligations.GenslotNeverWritesAbove4094 := by
  intro s t h
  rw [execGenslot_inv h, s.genSlot_bufRead_same]
  exact mixSample_le ..

/-- Settles O30: the patterns below that of 256.0 are those in cycle. -/
theorem genslotStopsWithoutATableWord : Obligations.GenslotStopsWithoutATableWord := by
  intro s hb hc j hj hbad hlow
  refine execGenslot_unreadable hb hc (unreadableVoice_eq_some hj ?_ fun k hk hkj => ?_)
  · rwa [← Bool.not_eq_true, inCycle_iff_toNat_lt]
  · exact (inCycle_iff_toNat_lt _).2 (hlow k hk hkj)

/-! ## Good states (R118, R119) -/

theorem inCycle_phaseStep {c : Config} (h : configLegal c = true) (j : Voice) :
    inCycle c.phaseStep[j] = true := by
  have hnone : illFormedStep c = none := by simpa [configLegal] using h
  simpa [stepLegal] using List.find?_eq_none.1 hnone j (mem_voices j)

/-- Whether a state is good depends on its configuration, phases and buffer only. -/
theorem State.Good.congr {s t : State} (hs : s.Good) (hcfg : t.cfg = s.cfg)
    (hphase : t.phase = s.phase) (hbuf : t.buf = s.buf) : t.Good where
  cfg_legal := hcfg ▸ hs.cfg_legal
  phases j := by rw [hphase]; exact hs.phases j
  buf_wf := hbuf ▸ hs.buf_wf
  buf_range a v hv := hs.buf_range a v (hbuf ▸ hv)

theorem State.Good.genSlot {s : State} (hs : s.Good) : s.genSlot.Good where
  cfg_legal := by rw [State.genSlot_frame]; exact hs.cfg_legal
  phases j := by
    rw [State.genSlot_phase]
    by_cases hj : j ∈ activeSet s.act
    · rw [advancePhases_active s.cfg s.phase hj]
      exact inCycle_advancePhase s.cfg (hs.phases j) (inCycle_phaseStep hs.cfg_legal j)
    · rw [advancePhases_inactive s.cfg s.phase hj]
      exact hs.phases j
  buf_wf := by
    rw [State.genSlot_buf]
    exact Memory.wf_insert _ _ _ (BitVec.isLt _) hs.buf_wf
  buf_range a v hv := by
    rw [State.genSlot_buf, Memory.find_insert] at hv
    split_ifs at hv
    · exact Option.some.inj hv ▸ mixSample_le ..
    · exact hs.buf_range a v hv

theorem State.Good.exec {s t : State} {i : Instr} (hs : s.Good) (h : exec i s = .next t) :
    t.Good := by
  by_cases hi : i = .genslot
  · subst hi
    exact execGenslot_inv h ▸ hs.genSlot
  · obtain ⟨hframe, -, -, -, -, -, hcfg, -⟩ := eachRegisterHasItsWriters i s t h
    obtain ⟨hphase, hbuf, -⟩ := hframe hi
    exact hs.congr hcfg hphase hbuf

theorem State.Good.clockEdge {s : State} (hs : s.Good) (rst : Bool) : (s.clockEdge rst).Good := by
  cases rst with
  | false => exact hs.congr rfl rfl rfl
  | true => exact (State.initial_good hs.cfg_legal (s.resets + 1)).congr rfl rfl rfl

/-- Every event that happens keeps a good state good. -/
theorem State.Good.take {s t : State} {e : Event} (hs : s.Good) (h : s.take e = .next t) :
    t.Good := by
  rcases State.take_cases h with ⟨rst, -, rfl⟩ | rfl | ⟨-, i, hi, -⟩
  · exact hs.clockEdge rst
  · exact hs
  · exact hs.exec hi

/-- Settles O39: a step is an event in the state after `consume`. -/
theorem goodIsKeptByEveryStep : Obligations.GoodIsKeptByEveryStep := by
  intro s t hs h
  have hconsume : s.consume.Good :=
    hs.congr s.consume_cfg s.consume_phase s.consume_buf
  exact hconsume.take (step_next h).2

end Sys2Proof.Machine
end

section
/-!
SUPPORT. Refills (41_sample_generator.md R120, R121, R124, R125): what an event leaves unchanged, one
induction over the events of a refill, and the refills with any voices, with none and with one active.
-/
namespace Sys2Proof.Machine

/-! ## What an event leaves unchanged -/

/-- Only `GENSLOT` and a reset edge write the phases. -/
theorem State.take_phase {s u : State} {e : Event} (hreset : e ≠ .clkEdge true)
    (hslot : e ≠ eventOf .genslot) (h : s.take e = .next u) : u.phase = s.phase := by
  rcases State.take_cases h with ⟨rst, rfl, rfl⟩ | rfl | ⟨-, i, hi, hword⟩
  · obtain rfl : rst = false := by simpa using hreset
    rfl
  · rfl
  · obtain ⟨hframe, -⟩ := eachRegisterHasItsWriters i s u hi
    refine (hframe fun hgen => ?_).1
    subst hgen
    rcases hword with ⟨w, rfl, hd⟩ | ⟨w, rfl, hd⟩
    · exact nomatch (decodeHost_eq_op_iff.1 hd).2.1
    · exact hslot (congrArg Event.agentStep (decodeEvent_eq_ok_iff.1 hd).2.symm)

/-- No event writes the configuration (R29). -/
theorem State.take_cfg {s u : State} {e : Event} (h : s.take e = .next u) : u.cfg = s.cfg := by
  rcases State.take_cases h with ⟨rst, -, rfl⟩ | rfl | ⟨-, i, hi, -⟩
  · cases rst <;> rfl
  · rfl
  · obtain ⟨-, -, -, -, -, -, hcfg, -⟩ := eachRegisterHasItsWriters i s u hi
    exact hcfg

/-- Only a clock edge that samples `rst` high raises it. -/
theorem State.take_rst {s u : State} {e : Event} (hr : s.rst = false) (hreset : e ≠ .clkEdge true)
    (h : s.take e = .next u) : u.rst = false := by
  rcases State.take_cases h with ⟨rst, rfl, rfl⟩ | rfl | ⟨-, i, hi, -⟩
  · obtain rfl : rst = false := by simpa using hreset
    rfl
  · exact hr
  · obtain ⟨-, -, -, -, -, -, -, hrst, -⟩ := eachRegisterHasItsWriters i s u hi
    exact hrst.trans hr

/-- An event that keeps the flags and does not reset leaves them as they are. -/
theorem State.take_act {s u : State} {e : Event} (hreset : e ≠ .clkEdge true)
    (hkeeps : KeepsFlags s.act e) (h : s.take e = .next u) : u.act = s.act := by
  rcases State.take_cases h with ⟨rst, rfl, rfl⟩ | rfl | ⟨-, i, hi, hword⟩
  · obtain rfl : rst = false := by simpa using hreset
    rfl
  · rfl
  · by_cases hset : ∃ note v, i = .setact note v
    · obtain ⟨note, v, rfl⟩ := hset
      rcases hword with ⟨w, rfl, hd⟩ | ⟨w, -, hd⟩
      · obtain ⟨hnote, -, -⟩ := decodeHost_eq_op_iff.1 hd
        obtain ⟨j, rfl⟩ := exists_voice_of_note (of_decide_eq_true hnote)
        have hval : j.val = (BitVec.ofNat 4 j.val).toNat := by
          rw [BitVec.toNat_ofNat]
          omega
        rw [← hkeeps w _ v rfl hd j hval, execSetact_ofNat, State.setActive_held] at hi
        exact congrArg State.act (Host.Outcome.next.inj hi).symm
      · exact nomatch (decodeEvent_eq_ok_iff.1 hd).1
    · obtain ⟨-, hact, -⟩ := eachRegisterHasItsWriters i s u hi
      exact hact fun note v hi => hset ⟨note, v, hi⟩

/-- A step of another agent happens wherever `rst` is low, and writes nothing of the generator's. -/
theorem State.take_otherAgent {s : State} {e : Event} (hr : s.rst = false)
    (he : otherAgent e = true) :
    ∃ u, s.take e = .next u ∧ u = { s with
      act := u.act, cursor := u.cursor, pending0 := u.pending0, pending1 := u.pending1,
      sampleOut := u.sampleOut, sampleStrobe := u.sampleStrobe, out := u.out,
      deadlineMiss := u.deadlineMiss } := by
  cases e with
  | clkEdge rst =>
    obtain rfl : rst = false := by simpa [otherAgent] using he
    refine ⟨_, rfl, ?_⟩
    rw [hr]
    rfl
  | hostCmd w =>
    obtain ⟨A, hA⟩ := s.takeHostCmd_next w
    exact ⟨_, hA, rfl⟩
  | agentStep w =>
    obtain rfl : w = 0x8000#16 := by simpa [otherAgent] using he
    refine ⟨_, State.take_eventOf (i := .tick) hr rfl, ?_⟩
    rw [State.drain_frame]

theorem otherAgent_genslot : otherAgent (eventOf .genslot) = false := by decide

theorem ne_genslot_of_otherAgent {e : Event} (h : otherAgent e = true) : e ≠ eventOf .genslot :=
  fun heq => by rw [heq, otherAgent_genslot] at h; cases h

theorem ne_reset_of_otherAgent {e : Event} (h : otherAgent e = true) : e ≠ .clkEdge true :=
  fun heq => by rw [heq] at h; cases h

theorem keepsFlags_genslot (A : BitVec 12) : KeepsFlags A (eventOf .genslot) :=
  fun _ _ _ h => nomatch h

/-! ## Runs of events -/

theorem State.takeAll_cons {s u : State} {e : Event} (h : s.take e = .next u) (es : List Event) :
    s.takeAll (e :: es) = u.takeAll es := by
  simp [State.takeAll, h]

theorem State.takeAll_cons_inv {s t : State} {e : Event} {es : List Event}
    (h : s.takeAll (e :: es) = .next t) : ∃ u, s.take e = .next u ∧ u.takeAll es = .next t := by
  cases hu : s.take e with
  | next u => exact ⟨u, rfl, State.takeAll_cons hu es ▸ h⟩
  | fault f => simp [State.takeAll, hu] at h
  | refused r => simp [State.takeAll, hu] at h

/-- What every event of a run keeps, counting the `GENSLOT` steps, holds at its end. -/
theorem State.takeAll_count {P : Nat → State → Prop} {es : List Event} {n : Nat} {s t : State}
    (hstep : ∀ e ∈ es, ∀ n t u, P n t → t.take e = .next u →
      P (n + if e = eventOf .genslot then 1 else 0) u)
    (hs : P n s) (h : s.takeAll es = .next t) : P (n + es.count (eventOf .genslot)) t := by
  induction es generalizing n s with
  | nil => exact Host.Outcome.next.inj h ▸ hs
  | cons e es ih =>
    obtain ⟨u, hu, hrest⟩ := State.takeAll_cons_inv h
    have := ih (fun e' he' => hstep e' (List.mem_cons_of_mem _ he'))
      (hstep e List.mem_cons_self n s u hs hu) hrest
    simpa only [List.count_cons, beq_iff_eq, Nat.add_assoc, Nat.add_comm] using this

theorem slotsAmongOthers_replicate (n : Nat) :
    SlotsAmongOthers n (List.replicate n (eventOf .genslot)) := by
  simp [SlotsAmongOthers, otherAgent_genslot]

/-- The first of such events is another agent's, or it is the first slot. -/
theorem slotsAmongOthers_cons {n : Nat} {e : Event} {es : List Event}
    (h : SlotsAmongOthers n (e :: es)) :
    (otherAgent e = true ∧ SlotsAmongOthers n es) ∨
      (e = eventOf .genslot ∧ ∃ m, n = m + 1 ∧ SlotsAmongOthers m es) := by
  cases he : otherAgent e with
  | true => exact .inl ⟨rfl, by simpa [SlotsAmongOthers, he] using h⟩
  | false =>
    cases n with
    | zero => simp [SlotsAmongOthers, he] at h
    | succ m =>
      have hcons : e = eventOf .genslot ∧ SlotsAmongOthers m es := by
        simpa [SlotsAmongOthers, he, List.replicate_succ] using h
      exact .inr ⟨hcons.1, m, rfl, hcons.2⟩

/-- Events with `n` slots among them all happen, where a predicate on the number of slots done makes
each of them happen and is kept by it. -/
theorem State.takeAll_slots {P : Nat → State → Prop} {es : List Event} {k n : Nat} {s : State}
    (hother : ∀ e ∈ es, otherAgent e = true → ∀ k t, P k t → ∃ u, t.take e = .next u ∧ P k u)
    (hslot : ∀ k t, k < 128 → P k t → ∃ u, t.take (eventOf .genslot) = .next u ∧ P (k + 1) u)
    (hes : SlotsAmongOthers n es) (hn : k + n ≤ 128) (hs : P k s) :
    ∃ t, s.takeAll es = .next t ∧ P (k + n) t := by
  induction es generalizing k n s with
  | nil =>
    obtain rfl : n = 0 := by simpa [SlotsAmongOthers] using hes
    exact ⟨s, rfl, hs⟩
  | cons e es ih =>
    have hother' := fun e' he' => hother e' (List.mem_cons_of_mem e he')
    rcases slotsAmongOthers_cons hes with ⟨he, hes'⟩ | ⟨rfl, m, rfl, hes'⟩
    · obtain ⟨u, hu, hP⟩ := hother e List.mem_cons_self he k s hs
      rw [State.takeAll_cons hu]
      exact ih hother' hes' hn hP
    · obtain ⟨u, hu, hP⟩ := hslot k s (by omega) hs
      rw [State.takeAll_cons hu, Nat.add_comm m, ← Nat.add_assoc]
      exact ih hother' hes' (by omega) hP

/-! ## The progress of a refill -/

/-- `t` is a state that `n` slots of the refill `s` asks for lead to: the first `n` slots of the half
served are written, slot `k` with a value that meets `W k`, and no other slot is. -/
structure RefillProgress (s : State) (W : Nat → Sample → Prop) (n : Nat) (t : State) : Prop where
  rst : t.rst = false
  cfg : t.cfg = s.cfg
  half : t.genHalf = s.servedHalf
  idx : t.genIdx.toNat = n % 128
  busy : t.genBusy = decide (n < 128)
  written : ∀ k : BitVec 7, k.toNat < n → ∃ v,
    Memory.find t.buf (slotAt s.cfg s.servedHalf k).toNat = some v ∧ W k.toNat v
  kept : ∀ a : Slot, (halfOf s.cfg a ≠ s.servedHalf ∨ n ≤ a.toNat % 128) → t.bufRead a = s.bufRead a

/-- The slots of a half are its 128 positions. -/
theorem exists_slotAt {c : Config} {a : Slot} {h : Half} (ha : halfOf c a = h) :
    ∃ k : BitVec 7, a = slotAt c h k := by
  have hlt := a.isLt
  refine ⟨BitVec.ofNat 7 a.toNat, BitVec.eq_of_toNat_eq ?_⟩
  rw [halfOf_eq] at ha
  rw [slotAt_toNat, BitVec.toNat_ofNat]
  split_ifs at ha <;> subst ha <;> simp only [halfNumber] <;> omega

theorem slotAt_toNat_mod (c : Config) (h : Half) (idx : BitVec 7) :
    (slotAt c h idx).toNat % 128 = idx.toNat := by
  have := idx.isLt
  rw [slotAt_toNat]
  omega

theorem RefillProgress.read {s t : State} {W : Nat → Sample → Prop} {n : Nat}
    (h : RefillProgress s W n t) {k : BitVec 7} (hk : k.toNat < n) :
    W k.toNat (t.bufRead (slotAt s.cfg s.servedHalf k)) := by
  obtain ⟨v, hv, hW⟩ := h.written k hk
  rwa [State.bufRead, hv, Option.getD_some]

/-- `ARBSTART` starts the refill (R131). -/
theorem RefillProgress.start (s : State) (W : Nat → Sample → Prop) (hr : s.rst = false) :
    RefillProgress s W 0 (s.serve s.servedHalf) where
  rst := (s.serve_rst _).trans hr
  cfg := s.serve_cfg _
  half := rfl
  idx := rfl
  busy := rfl
  written _ hk := absurd hk (Nat.not_lt_zero _)
  kept a _ := State.bufRead_congr (s.serve_buf _) (s.serve_resets _) a

/-- Another agent's step leaves the refill where it is. -/
theorem RefillProgress.other {s t : State} {W : Nat → Sample → Prop} {n : Nat} {e : Event}
    (h : RefillProgress s W n t) (he : otherAgent e = true) :
    ∃ u, t.take e = .next u ∧ RefillProgress s W n u := by
  obtain ⟨u, hu, hframe⟩ := State.take_otherAgent h.rst he
  rw [hframe] at hu
  exact ⟨_, hu, h.rst, h.cfg, h.half, h.idx, h.busy, h.written, h.kept⟩

/-- A slot takes the refill one position on (R110). -/
theorem RefillProgress.slot {s t : State} {W : Nat → Sample → Prop} {n : Nat}
    (h : RefillProgress s W n t) (hn : n < 128) (hW : W n (mixSample t.cfg t.phase t.act)) :
    RefillProgress s W (n + 1) t.genSlot := by
  obtain ⟨hidx, hbusy⟩ := t.genSlot_position
  have hpos : t.genIdx.toNat = n := h.idx.trans (Nat.mod_eq_of_lt hn)
  have hat : slotAt t.cfg t.genHalf t.genIdx = slotAt s.cfg s.servedHalf t.genIdx := by
    rw [h.cfg, h.half]
  refine ⟨?_, ?_, ?_, ?_, ?_, fun k hk => ?_, fun a ha => ?_⟩
  · rw [State.genSlot_frame]; exact h.rst
  · rw [State.genSlot_frame]; exact h.cfg
  · rw [State.genSlot_frame]; exact h.half
  · rw [hidx, hpos]
  · rw [hbusy, h.busy, hpos, decide_eq_true hn, Bool.true_and]
    exact decide_eq_decide.2 (by omega)
  · rw [State.genSlot_buf, hat, Memory.find_insert]
    split_ifs with heq
    · have hkn : k.toNat = n := by
        rw [← slotAt_toNat_mod s.cfg s.servedHalf k, heq, slotAt_toNat_mod, hpos]
      exact ⟨_, rfl, hkn ▸ hW⟩
    · refine h.written k (Nat.lt_of_le_of_ne (Nat.le_of_lt_succ hk) fun hkn => heq ?_)
      rw [BitVec.eq_of_toNat_eq (hkn.trans hpos.symm)]
  · have hne : a ≠ slotAt t.cfg t.genHalf t.genIdx := by
      rintro rfl
      rw [hat, halfOf_slotAt, slotAt_toNat_mod, hpos] at ha
      exact ha.elim (fun hne => hne rfl) (Nat.not_succ_le_self n)
    rw [State.genSlot_bufRead_other t hne]
    exact h.kept a (ha.imp_right (by omega))

/-- The events of a refill with `n` slots among them all happen and lead to its `n`-th position, where
a predicate on the number of slots done, kept by each event, has each slot's sample meet `W`. -/
theorem refill_takeAll {s : State} {W : Nat → Sample → Prop} {Q : Nat → State → Prop} {n : Nat}
    {es : List Event} (hc : configLegal s.cfg = true) (hr : s.rst = false)
    (harb : s.arbEnabled = true) (hn : n ≤ 128) (hes : SlotsAmongOthers n es)
    (hstart : Q 0 (s.serve s.servedHalf))
    (hother : ∀ e ∈ es, otherAgent e = true → ∀ k t u, Q k t → t.take e = .next u → Q k u)
    (hslot : ∀ k t, t.cfg = s.cfg → Q k t →
      (∀ j ∈ activeSet t.act, inCycle t.phase[j] = true) ∧
        W k (mixSample t.cfg t.phase t.act) ∧ Q (k + 1) t.genSlot) :
    ∃ t, s.takeAll (eventOf .arbstart :: es) = .next t ∧ RefillProgress s W n t ∧ Q n t := by
  have harbstart : s.take (eventOf .arbstart) = .next (s.serve s.servedHalf) :=
    (State.take_eventOf hr rfl).trans (execArbstart_enabled harb)
  rw [State.takeAll_cons harbstart, ← Nat.zero_add n]
  refine State.takeAll_slots (P := fun k t => RefillProgress s W k t ∧ Q k t)
    (fun e he hagent k t ⟨hprog, hQ⟩ => ?_) (fun k t hk ⟨hprog, hQ⟩ => ?_) hes (by omega)
    ⟨RefillProgress.start s W hr, hstart⟩
  · obtain ⟨u, hu, hprog'⟩ := hprog.other hagent
    exact ⟨u, hu, hprog', hother e he hagent k t u hQ hu⟩
  · obtain ⟨hcycle, hW, hQ'⟩ := hslot k t hprog.cfg hQ
    have hbusy : t.genBusy = true := hprog.busy.trans (decide_eq_true hk)
    exact ⟨_, (State.take_eventOf hprog.rst rfl).trans
      (execGenslot_next hbusy (hprog.cfg ▸ hc) hcycle), hprog.slot hk hW, hQ'⟩

/-! ## Any voices (R121) -/

theorem State.Good.serve {s : State} (hs : s.Good) (h : Half) : (s.serve h).Good :=
  hs.congr (s.serve_cfg h) (s.serve_phase h) (s.serve_buf h)

/-- Settles O57: good states keep every active phase in cycle. -/
theorem refillWritesItsSlotsInOrder : Obligations.RefillWritesItsSlotsInOrder := by
  intro s n es hs hr harb hn hes
  obtain ⟨t, ht, hprog, -⟩ := refill_takeAll (W := fun _ v => v.toNat ≤ 4094) (Q := fun _ => State.Good)
    hs.cfg_legal hr harb hn hes (hs.serve _)
    (fun _ _ _ _ _ _ hgood htake => hgood.take htake)
    (fun _ t _ hgood => ⟨fun j _ => hgood.phases j, mixSample_le .., hgood.genSlot⟩)
  exact ⟨t, ht, hprog.half, hprog.idx, hprog.busy, hprog.written, hprog.kept⟩

/-- In an uninterrupted refill no event is another agent's. -/
theorem not_otherAgent_of_mem_replicate {n : Nat} {e : Event}
    (he : e ∈ List.replicate n (eventOf .genslot)) : ¬ otherAgent e = true := by
  rw [List.eq_of_mem_replicate he, otherAgent_genslot]
  decide

/-- Settles O51: the slots alone keep what `ARBSTART` leaves but for the generator's own fields. -/
theorem refillFillsItsHalf : Obligations.RefillFillsItsHalf := by
  intro s hs hr harb
  obtain ⟨t, ht, hprog, hgood, hframe⟩ := refill_takeAll (W := fun _ v => v.toNat ≤ 4094)
    (Q := fun _ t => t.Good ∧ t = { s.serve s.servedHalf with
      buf := t.buf, phase := t.phase, genIdx := t.genIdx, genBusy := t.genBusy })
    hs.cfg_legal hr harb le_rfl (slotsAmongOthers_replicate 128) ⟨hs.serve _, rfl⟩
    (fun e he hagent => absurd hagent (not_otherAgent_of_mem_replicate he))
    (fun _ t _ ⟨hgood, hframe⟩ => ⟨fun j _ => hgood.phases j, mixSample_le .., hgood.genSlot,
      by rw [State.genSlot_frame, hframe]⟩)
  refine ⟨t, ht, hprog.busy, hprog.idx, hprog.half, ?_, ?_, ?_, ?_, ?_, fun a ha => ?_, fun a ha => ?_⟩
  · rw [hframe]; exact s.serve_cursor _
  · rw [hframe]; exact s.serve_act _
  · rw [hframe]; exact s.serve_out _
  · rw [hframe]; exact (s.serve_pending ..).trans (if_pos rfl)
  · rw [hframe]; exact (s.serve_pending ..).trans (if_neg (by cases s.servedHalf <;> decide))
  · obtain ⟨k, rfl⟩ := exists_slotAt ha
    exact hprog.written k k.isLt
  · exact hprog.kept a (.inl ha)

/-! ## No voice (R120) -/

theorem advancePhases_silent (c : Config) (phase : Vector F32 12) {A : BitVec 12}
    (h : activeSet A = ∅) : advancePhases c phase A = phase :=
  Vector.ext fun i hi => advancePhases_inactive c phase (j := ⟨i, hi⟩) (by simp [h])

theorem silentRefill_takeAll {s : State} {n : Nat} {es : List Event}
    (hc : configLegal s.cfg = true) (hr : s.rst = false) (harb : s.arbEnabled = true)
    (hA : activeSet s.act = ∅) (hn : n ≤ 128) (hes : SlotsAmongOthers n es)
    (hflags : ∀ e ∈ es, KeepsFlags s.act e) :
    ∃ t, s.takeAll (eventOf .arbstart :: es) = .next t ∧
      RefillProgress s (fun _ v => v.toNat = 2047) n t ∧ t.act = s.act ∧ t.phase = s.phase := by
  refine refill_takeAll (Q := fun _ t => t.act = s.act ∧ t.phase = s.phase) hc hr harb hn hes
    ⟨s.serve_act _, s.serve_phase _⟩ (fun e he hagent _ t u ⟨hact, hphase⟩ hu => ⟨?_, ?_⟩)
    (fun _ t _ ⟨hact, hphase⟩ => ⟨?_, ?_, ?_, ?_⟩)
  · exact (State.take_act (ne_reset_of_otherAgent hagent) (hact ▸ hflags e he) hu).trans hact
  · exact (State.take_phase (ne_reset_of_otherAgent hagent) (ne_genslot_of_otherAgent hagent)
      hu).trans hphase
  · simp [hact, hA]
  · exact mixSample_of_silent _ _ (by rw [hact, hA, Finset.card_empty])
  · rw [State.genSlot_frame]
    exact hact
  · rw [State.genSlot_phase, advancePhases_silent _ _ (hact ▸ hA), hphase]

/-- Settles O58: of the good state only its legal configuration is needed. -/
theorem silentSlotsAreMidScaleAmongOtherSteps :
    Obligations.SilentSlotsAreMidScaleAmongOtherSteps := by
  intro s n es hs hr harb hA hn hes hflags
  obtain ⟨t, ht, hprog, -, hphase⟩ :=
    silentRefill_takeAll hs.cfg_legal hr harb hA hn hes hflags
  exact ⟨t, ht, hphase, hprog.idx, fun _ => hprog.read⟩

theorem keepsFlags_of_mem_replicate (A : BitVec 12) {n : Nat} :
    ∀ e ∈ List.replicate n (eventOf .genslot), KeepsFlags A e :=
  fun _ he => List.eq_of_mem_replicate he ▸ keepsFlags_genslot A

/-- Settles O52: the slots of the half are its 128 positions. -/
theorem silentRefillWritesMidScale : Obligations.SilentRefillWritesMidScale := by
  intro s hc hr harb hA
  obtain ⟨t, ht, hprog, -, hphase⟩ := silentRefill_takeAll hc hr harb hA le_rfl
    (slotsAmongOthers_replicate 128) (keepsFlags_of_mem_replicate s.act)
  refine ⟨t, ht, hphase, fun a ha => ?_⟩
  obtain ⟨k, rfl⟩ := exists_slotAt ha
  exact hprog.read k.isLt

/-! ## One voice (R124, R125) -/

/-- The phase of voice `m` after `k` advances. -/
def State.phaseAfter (s : State) (m : Voice) (k : Nat) : F32 :=
  (fun p => advancePhase s.cfg p s.cfg.phaseStep[m])^[k] s.phase[m]

/-- `t` is a running state that `k` slots lead to from `s`, whose flags and configuration it has. -/
structure AfterSlots (s : State) (m : Voice) (k : Nat) (t : State) : Prop where
  good : t.Good
  rst : t.rst = false
  act : t.act = s.act
  cfg : t.cfg = s.cfg
  phase : t.phase[m] = s.phaseAfter m k

theorem AfterSlots.start {s : State} (m : Voice) (hs : s.Good) (hr : s.rst = false) :
    AfterSlots s m 0 s :=
  ⟨hs, hr, rfl, rfl, rfl⟩

theorem AfterSlots.serve {s t : State} {m : Voice} {k : Nat} (h : AfterSlots s m k t) (half : Half) :
    AfterSlots s m k (t.serve half) where
  good := h.good.serve half
  rst := (t.serve_rst half).trans h.rst
  act := (t.serve_act half).trans h.act
  cfg := (t.serve_cfg half).trans h.cfg
  phase := by rw [State.serve_phase]; exact h.phase

theorem AfterSlots.genSlot {s t : State} {m : Voice} {k : Nat} (hm : m ∈ activeSet s.act)
    (h : AfterSlots s m k t) : AfterSlots s m (k + 1) t.genSlot where
  good := h.good.genSlot
  rst := by rw [State.genSlot_frame]; exact h.rst
  act := by rw [State.genSlot_frame]; exact h.act
  cfg := by rw [State.genSlot_frame]; exact h.cfg
  phase := by
    rw [State.genSlot_phase, advancePhases_active _ _ (h.act ▸ hm), h.cfg, h.phase, State.phaseAfter,
      State.phaseAfter, Function.iterate_succ_apply']

theorem AfterSlots.take {s t u : State} {m : Voice} {k : Nat} {e : Event} (h : AfterSlots s m k t)
    (hflags : KeepsFlags s.act e) (hreset : e ≠ .clkEdge true) (hslot : e ≠ eventOf .genslot)
    (hu : t.take e = .next u) : AfterSlots s m k u where
  good := h.good.take hu
  rst := State.take_rst h.rst hreset hu
  act := (State.take_act hreset (h.act ▸ hflags) hu).trans h.act
  cfg := (State.take_cfg hu).trans h.cfg
  phase := by rw [State.take_phase hreset hslot hu]; exact h.phase

/-- The word of the one voice at its phase is the sample of the next slot. -/
theorem AfterSlots.tableRead_phaseAfter {s t : State} {m : Voice} {k : Nat} (hA : activeSet s.act = {m})
    (h : AfterSlots s m k t) :
    tableRead (f32Floor (s.phaseAfter m k)) = some (mixSample t.cfg t.phase t.act) := by
  rw [← h.phase]
  exact tableRead_of_one_voice t.cfg (h.act ▸ hA) (h.good.phases m)

/-- Settles O59: the predicate kept along the refill is `AfterSlots`. -/
theorem oneVoiceReproducesTheTableAmongOtherSteps :
    Obligations.OneVoiceReproducesTheTableAmongOtherSteps := by
  intro s m es hs hr harb hA hes hflags
  obtain ⟨t, ht, hprog, hslots⟩ := refill_takeAll
    (W := fun k v => tableRead (f32Floor (s.phaseAfter m k)) = some v) (Q := AfterSlots s m)
    hs.cfg_legal hr harb le_rfl hes ((AfterSlots.start m hs hr).serve _)
    (fun e he hagent _ _ _ hslots hu => hslots.take (hflags e he) (ne_reset_of_otherAgent hagent)
      (ne_genslot_of_otherAgent hagent) hu)
    (fun _ t _ hslots => ⟨fun j _ => hslots.good.phases j, hslots.tableRead_phaseAfter hA,
      hslots.genSlot (by simp [hA])⟩)
  exact ⟨t, ht, hslots.phase, fun k => hprog.read k.isLt⟩

/-- Settles O53: the uninterrupted order has no other agent's steps among the slots. -/
theorem oneVoiceRefillReproducesTheTable : Obligations.OneVoiceRefillReproducesTheTable :=
  fun s m hs hr harb hA => oneVoiceReproducesTheTableAmongOtherSteps s m _ hs hr harb hA
    (slotsAmongOthers_replicate 128) (keepsFlags_of_mem_replicate s.act)

/-- Along any run that keeps the flags and does not reset, the voice's phase counts the slots. -/
theorem AfterSlots.takeAll {s t : State} {m : Voice} {es : List Event} (hs : s.Good)
    (hr : s.rst = false) (hm : m ∈ activeSet s.act)
    (hes : ∀ e ∈ es, KeepsFlags s.act e ∧ e ≠ .clkEdge true) (h : s.takeAll es = .next t) :
    AfterSlots s m (es.count (eventOf .genslot)) t := by
  have hcount := State.takeAll_count (P := AfterSlots s m) (fun e he n t u hslots hu => ?_)
    (AfterSlots.start m hs hr) h
  · rwa [Nat.zero_add] at hcount
  · split_ifs with hgen
    · rw [hgen, State.take_eventOf hslots.rst rfl] at hu
      exact execGenslot_inv hu ▸ hslots.genSlot hm
    · exact hslots.take (hes e he).1 (hes e he).2 hgen hu

/-- Settles O60: after `n` slots the phase is that of `n` advances, which
`integerStepReturnsToZero` counts. -/
theorem integerStepVoiceReadsEveryDthWord : Obligations.IntegerStepVoiceReadsEveryDthWord := by
  intro s t m d es hs hr hA hd hval hzero hes h
  have hslots := AfterSlots.takeAll hs hr (hA ▸ Finset.mem_singleton_self m) hes h
  generalize es.count (eventOf .genslot) = n at hslots ⊢
  have hstep := inCycle_phaseStep hs.cfg_legal m
  obtain ⟨harith, hreturn, hbefore⟩ := integerStepReturnsToZero s.cfg _ d hstep hd hval
  rw [← hzero] at hreturn
  obtain ⟨p, rfl, hvalue, hfloor, hsum⟩ := harith n
  have hphase : t.phase[m] = _ := hslots.phase
  rw [State.phaseAfter, hzero] at hphase
  rw [hslots.cfg, hphase]
  refine ⟨hvalue, hsum, fun hbusy => ?_, ?_, hbefore n⟩
  · refine ⟨_, execGenslot_next hbusy hslots.good.cfg_legal fun j _ => hslots.good.phases j, ?_⟩
    rw [← hslots.cfg, State.genSlot_bufRead_same, ← hslots.tableRead_phaseAfter hA, State.phaseAfter, hzero,
      hfloor]
  · rintro rfl
    rwa [hzero] at hreturn

end Sys2Proof.Machine
end

section
/-!
SUPPORT. The output side (42_transfer_refill.md): what `TICK` and `ARBSTART` do, field by field (R130,
R131), the account of the first 256 samples (R134, R141), and the half being read (R142).
-/
namespace Sys2Proof.Machine

/-! ## `TICK` (R130) -/

@[simp] theorem State.drain_out (s : State) : s.drain.out = s.out ++ [s.bufRead s.cursor] := by
  rw [State.drain_frame]

theorem State.drain_cursor_toNat (s : State) :
    s.drain.cursor.toNat = (s.cursor.toNat + 1) % 256 := by
  rw [State.drain_frame]
  exact BitVec.toNat_add ..

/-- A request stays, and each boundary the cursor reaches raises that of the half it leaves (R132). -/
theorem State.drain_pending (s : State) (h : Half) :
    s.drain.pending h = (s.pending h || decide (s.drain.cursor.toNat = 128 ∧ h = .half0) ||
      decide (s.drain.cursor.toNat = 0 ∧ h = .half1)) := by
  have hkept : (s.emit (s.bufRead s.cursor)).advanceCursor.pending h = s.pending h := by
    cases h <;> rfl
  unfold State.drain
  rw [State.crossing_pending, hkept]
  simp only [State.crossing_cursor, ← BitVec.toNat_inj]
  rfl

theorem State.drain_pending0 (s : State) :
    s.drain.pending0 = (s.pending0 || decide (s.drain.cursor.toNat = 128)) := by
  simpa [State.pending] using s.drain_pending .half0

theorem State.drain_pending1 (s : State) :
    s.drain.pending1 = (s.pending1 || decide (s.drain.cursor.toNat = 0)) := by
  simpa [State.pending] using s.drain_pending .half1

/-- The deadline test of the half the cursor enters (R156). -/
theorem State.drain_deadlineMiss (s : State) :
    s.drain.deadlineMiss = (s.deadlineMiss ||
      (decide (s.drain.cursor.toNat = 128) && s.unrefilled .half1) ||
        (decide (s.drain.cursor.toNat = 0) && s.unrefilled .half0)) := by
  unfold State.drain
  rw [State.crossing_deadlineMiss]
  simp only [State.crossing_cursor, ← BitVec.toNat_inj]
  rfl

theorem State.drain_refilling (s : State) (h : Half) : s.drain.refilling h = s.refilling h := by
  rw [State.drain_frame]
  rfl

/-- Settles O23. -/
theorem tickDrainsOneSlot : Obligations.TickDrainsOneSlot := by
  intro s
  refine ⟨s.drain, execTick_eq s, ?_, s.drain_out, s.drain_cursor_toNat,
    s.drain_pending0, s.drain_pending1, s.drain_deadlineMiss, ?_⟩ <;> rw [State.drain_frame]

/-! ## `ARBSTART` (R131) -/

theorem State.arbEnabled_iff (s : State) :
    s.arbEnabled = true ↔ s.genBusy = false ∧ (s.pending0 = true ∨ s.pending1 = true) := by
  simp [State.arbEnabled]

/-- With both requests pending the half served is the one the cursor is not in (R137). -/
theorem State.servedHalf_both {s : State} (h0 : s.pending0 = true) (h1 : s.pending1 = true) :
    s.servedHalf = otherHalf (halfOf s.cfg s.cursor) := by
  simp [State.servedHalf, h0, h1]

theorem State.servedHalf_half0 {s : State} (h0 : s.pending0 = true) (h1 : s.pending1 = false) :
    s.servedHalf = .half0 := by
  simp [State.servedHalf, h0, h1]

theorem State.servedHalf_half1 {s : State} (h0 : s.pending0 = false) : s.servedHalf = .half1 := by
  simp [State.servedHalf, h0]

theorem halfNumber_otherHalf_halfOf (c : Config) (a : Slot) :
    halfNumber (otherHalf (halfOf c a)) = 1 - a.toNat / 128 := by
  have hlt := a.isLt
  rw [halfOf_eq]
  split_ifs <;> simp only [otherHalf, halfNumber] <;> omega

/-- Settles O24: the requests and the half served are those of `State.serve` and `State.servedHalf`. -/
theorem arbstartStartsARefill : Obligations.ArbstartStartsARefill := by
  intro s hb hp
  have hpending := fun k => s.serve_pending s.servedHalf k
  refine ⟨_, execArbstart_enabled (s.arbEnabled_iff.2 ⟨hb, hp⟩), fun h0 h1 => ?_, fun h0 h1 => ?_,
    fun h0 => ?_, ?_, ?_, rfl, rfl, s.serve_frame _⟩
  · rw [State.serve_genHalf, State.servedHalf_both h0 h1, halfNumber_otherHalf_halfOf]
  · exact State.servedHalf_half0 h0 h1
  · exact State.servedHalf_half1 h0
  · refine (hpending .half0).trans ?_
    cases s.servedHalf <;> simp [State.pending]
  · refine (hpending .half1).trans ?_
    cases s.servedHalf <;> simp [State.pending]

/-! ## The first 256 samples (R134, R141) -/

/-- The slot under the cursor holds its reset draw until it was emitted once. -/
theorem State.FirstRevolution.bufRead_cursor {s : State} (hs : s.FirstRevolution)
    (hlt : s.out.length < 256) :
    s.bufRead s.cursor = Config.bufferInit s.resets s.out.length := by
  have hcursor : s.cursor.toNat = s.out.length := hs.counts.trans (Nat.mod_eq_of_lt hlt)
  have hunwritten : Memory.find s.buf s.out.length = none := by
    by_cases h128 : s.out.length < 128
    · obtain ⟨-, -, -, hbuf⟩ := hs.no_request h128
      rw [hbuf]
      rfl
    · obtain ⟨-, -, hfind⟩ := hs.only_half0 hlt
      exact hfind _ (Nat.le_of_not_lt h128)
  rw [State.bufRead, hcursor, hunwritten, Option.getD_none]

/-- A tick emits the next reset draw, and its request is none before the 128th sample, and of half 0
before the 256th. -/
theorem State.FirstRevolution.drain {s : State} (hs : s.FirstRevolution) :
    s.drain.FirstRevolution := by
  have hlen : s.drain.out.length = s.out.length + 1 := by simp
  have hcounts : s.drain.cursor.toNat = (s.out.length + 1) % 256 := by
    rw [s.drain_cursor_toNat, hs.counts, Nat.mod_add_mod]
  have hbuf : s.drain.buf = s.buf := by rw [State.drain_frame]
  have hresets : s.drain.resets = s.resets := by rw [State.drain_frame]
  refine ⟨?_, fun hlt => ?_, fun hlt => ?_, fun k hk hlt => ?_⟩
  · rw [State.cursorCounts, hcounts, hlen]
  · rw [hlen] at hlt
    obtain ⟨hp0, hp1, hbusy, hempty⟩ := hs.no_request (by omega)
    have h128 : s.drain.cursor.toNat ≠ 128 := by omega
    have h0 : s.drain.cursor.toNat ≠ 0 := by omega
    refine ⟨?_, ?_, ?_, hbuf.trans hempty⟩
    · rw [State.drain_pending0, hp0, decide_eq_false h128, Bool.or_false]
    · rw [State.drain_pending1, hp1, decide_eq_false h0, Bool.or_false]
    · rw [State.drain_frame]
      exact hbusy
  · rw [hlen] at hlt
    obtain ⟨hp1, hrefilling, hfind⟩ := hs.only_half0 (by omega)
    have h0 : s.drain.cursor.toNat ≠ 0 := by omega
    refine ⟨?_, (s.drain_refilling _).trans hrefilling, hbuf ▸ hfind⟩
    rw [State.drain_pending1, hp1, decide_eq_false h0, Bool.or_false]
  · rw [s.drain_out, hresets]
    rcases Nat.lt_or_ge k s.out.length with hold | hnew
    · rw [List.getElem?_append_left hold]
      exact hs.draws k hk hold
    · obtain rfl : k = s.out.length := by omega
      rw [List.getElem?_concat_length, hs.bufRead_cursor hk]

/-- A refill starts from the 128th sample on, and serves half 0 before the 256th. -/
theorem State.FirstRevolution.serve {s : State} (hs : s.FirstRevolution)
    (henabled : s.arbEnabled = true) : (s.serve s.servedHalf).FirstRevolution := by
  obtain ⟨-, hrequest⟩ := s.arbEnabled_iff.1 henabled
  rw [State.serve_frame]
  refine ⟨hs.counts, fun hlt => ?_, fun hlt => ?_, hs.draws⟩
  · obtain ⟨hp0, hp1, -⟩ := hs.no_request hlt
    simp [hp0, hp1] at hrequest
  · obtain ⟨hp1, -, hfind⟩ := hs.only_half0 hlt
    have hp0 : s.pending0 = true := by simpa [hp1] using hrequest
    have hserved := State.servedHalf_half0 hp0 hp1
    refine ⟨?_, ?_, hfind⟩
    · have := s.serve_pending s.servedHalf .half1
      rw [hserved] at this ⊢
      exact this.trans hp1
    · rw [hserved]
      rfl

/-- A slot is written from the 128th sample on, and in half 0 before the 256th. -/
theorem State.FirstRevolution.genSlot {s : State} (hs : s.FirstRevolution)
    (hbusy : s.genBusy = true) : s.genSlot.FirstRevolution := by
  rw [State.genSlot_frame]
  refine ⟨hs.counts, fun hlt => ?_, fun hlt => ?_, hs.draws⟩
  · obtain ⟨-, -, hidle, -⟩ := hs.no_request hlt
    exact absurd hbusy (Bool.eq_false_iff.1 hidle)
  · obtain ⟨hp1, hrefilling, hfind⟩ := hs.only_half0 hlt
    have hhalf : s.genHalf = .half0 := by
      cases hh : s.genHalf with
      | half0 => rfl
      | half1 => simp [State.refilling, hbusy, hh] at hrefilling
    refine ⟨hp1, by simp [State.refilling, hhalf], fun a ha => ?_⟩
    have hne : a ≠ (slotAt s.cfg s.genHalf s.genIdx).toNat := by
      have := s.genIdx.isLt
      rw [slotAt_toNat, hhalf, halfNumber]
      omega
    rw [Memory.find_insert_other _ _ hne]
    exact hfind a ha

theorem State.FirstRevolution.exec {i : Instr} {s t : State} (hs : s.FirstRevolution)
    (h : exec i s = .next t) : t.FirstRevolution := by
  rcases exec_cases h with ⟨rfl, -⟩ | ⟨note, v, -, ⟨j, -, rfl⟩ | ⟨-, rfl⟩⟩ | ⟨-, rfl⟩ |
    ⟨-, henabled, rfl⟩ | ⟨-, hbusy, -, -, rfl⟩
  · exact hs
  · exact ⟨hs.counts, hs.no_request, hs.only_half0, hs.draws⟩
  · exact hs
  · exact hs.drain
  · exact hs.serve henabled
  · exact hs.genSlot hbusy

/-- The account starts anew at a reset edge and does not read what any other edge writes. -/
theorem State.FirstRevolution.clockEdge {s : State} (hs : s.FirstRevolution) (rst : Bool) :
    (s.clockEdge rst).FirstRevolution := by
  cases rst with
  | false => exact ⟨hs.counts, hs.no_request, hs.only_half0, hs.draws⟩
  | true =>
    have hinit := State.initial_firstRevolution s.cfg (s.resets + 1)
    exact ⟨hinit.counts, hinit.no_request, hinit.only_half0, hinit.draws⟩

theorem State.FirstRevolution.consume {s : State} (hs : s.FirstRevolution) :
    s.consume.FirstRevolution := by
  unfold State.consume
  split <;> exact ⟨hs.counts, hs.no_request, hs.only_half0, hs.draws⟩

/-- Settles O45: a clock edge, nothing or one operation after `consume` (`step_cases`), and each keeps
the account. -/
theorem firstRevolutionIsKeptByEveryStep : Obligations.FirstRevolutionIsKeptByEveryStep := by
  intro s t hs h
  rcases step_cases h with ⟨rst, -, rfl⟩ | rfl | ⟨-, i, hi⟩
  · exact hs.consume.clockEdge rst
  · exact hs.consume
  · exact hs.consume.exec hi

/-! ## The half being read (R62, R142) -/

theorem otherHalf_ne (h : Half) : otherHalf h ≠ h := by
  cases h <;> decide

theorem eq_otherHalf_of_ne {h k : Half} (hne : h ≠ k) : h = otherHalf k := by
  cases h <;> cases k <;> simp_all [otherHalf]

/-- Where no miss was observed, a refill in progress is of the half the cursor is not in. -/
theorem State.quietHalf.genHalf_eq {s : State} (hs : s.quietHalf) (hmiss : s.deadlineMiss = false)
    (hbusy : s.genBusy = true) : s.genHalf = otherHalf (halfOf s.cfg s.cursor) := by
  have hquiet : s.refilling (halfOf s.cfg s.cursor) = false := (Bool.or_eq_false_iff.1 (hs hmiss)).2
  exact eq_otherHalf_of_ne (by simpa [State.refilling, hbusy] using hquiet)

/-- Settles O44: the slot written lies in the half the generator refills. -/
theorem halfBeingReadIsNotWritten : Obligations.HalfBeingReadIsNotWritten := by
  intro s t hs hmiss h
  have hbusy : s.genBusy = true := by
    by_contra hidle
    rw [execGenslot_idle (Bool.eq_false_iff.2 hidle)] at h
    cases h
  obtain rfl := execGenslot_inv h
  have hslot : halfOf s.cfg (slotAt s.cfg s.genHalf s.genIdx) = otherHalf (halfOf s.cfg s.cursor) :=
    (halfOf_slotAt ..).trans (hs.genHalf_eq hmiss hbusy)
  refine ⟨hslot, fun a ha => s.genSlot_bufRead_other ?_⟩
  rintro rfl
  exact otherHalf_ne _ (hslot.symm.trans ha)

end Sys2Proof.Machine
end

section
/-!
SUPPORT. The free run (20_memory.md R61, 42_transfer_refill.md R139): with nothing placed a good state
always has a next event that happens, the run of `step` is an execution fair to the arbiter and the
generator, and what fairness brings about.
-/
namespace Sys2Proof.Machine

/-! ## An event that can happen happens (R154) -/

/-- An event word other than the tick's runs its step or none: while `rst` is high there is no next
state (R170). -/
theorem State.take_agentStep_next {s t : State} {w : Word} {i : Instr} (hd : decodeEvent w = .ok i)
    (hi : i ≠ .tick) (h : s.take (.agentStep w) = .next t) : exec i s = .next t := by
  cases hr : s.rst with
  | false => exact (State.take_agentStep hr hd).symm.trans h
  | true => simp [State.take, State.takeAgentStep, hd, hr, hi] at h

theorem State.take_tick (s : State) {w : Word} (hd : decodeEvent w = .ok .tick) :
    ∃ t, s.take (.agentStep w) = .next t := by
  cases hr : s.rst with
  | false => exact ⟨_, (State.take_agentStep hr hd).trans (execTick_eq s)⟩
  | true => exact ⟨s, by simp [State.take, State.takeAgentStep, hd, hr]⟩

theorem State.Good.take_of_admits {s : State} {e : Event} (hs : s.Good) (h : s.admits e = true) :
    ∃ t, s.take e = .next t := by
  cases e with
  | clkEdge rst => exact ⟨_, rfl⟩
  | hostCmd w =>
    obtain ⟨A, hA⟩ := s.takeHostCmd_next w
    exact ⟨_, hA⟩
  | agentStep w =>
    simp only [State.admits] at h
    split at h <;> rename_i hd
    · exact s.take_tick hd
    · obtain ⟨hr, henabled⟩ : s.rst = false ∧ s.arbEnabled = true := by simpa using h
      exact ⟨_, (State.take_agentStep hr hd).trans (execArbstart_enabled henabled)⟩
    · obtain ⟨hr, hbusy⟩ : s.rst = false ∧ s.genBusy = true := by simpa [State.genEnabled] using h
      exact ⟨_, (State.take_agentStep hr hd).trans
        (execGenslot_next hbusy hs.cfg_legal fun j _ => hs.phases j)⟩
    · cases h

theorem State.admits_consume (s : State) (e : Event) : s.consume.admits e = s.admits e := by
  unfold State.consume
  split <;> rfl

theorem State.Good.consume {s : State} (hs : s.Good) : s.consume.Good :=
  hs.congr s.consume_cfg s.consume_phase s.consume_buf

theorem State.nextEvent_free {s : State} (hq : s.queue = []) : s.nextEvent = s.freeChoice := by
  rw [State.nextEvent, hq]

theorem State.consume_free {s : State} (hq : s.queue = []) :
    s.consume = { s with turn := s.turn + 1, passed := s.passedNext } := by
  rw [State.consume, hq]

/-- With nothing placed a good state has a next state: the free choice can happen. -/
theorem State.Good.step_free {s : State} (hs : s.Good) (hq : s.queue = []) :
    ∃ t, step s = .next t := by
  rw [step_legal hs.cfg_legal, State.nextEvent_free hq]
  exact hs.consume.take_of_admits ((s.admits_consume _).trans s.admits_freeChoice)

/-! ## What orders the events -/

theorem State.take_reset {s t : State} (h : s.take (.clkEdge true) = .next t) :
    t.rst = true ∧ t.genBusy = false := by
  obtain rfl := Host.Outcome.next.inj h
  exact ⟨rfl, rfl⟩

/-- No event writes the events placed or the count of free choices; a reset edge alone ends a wait. -/
theorem State.take_schedule {s t : State} {e : Event} (h : s.take e = .next t) :
    t.queue = s.queue ∧ t.turn = s.turn ∧ (e ≠ .clkEdge true → t.passed = s.passed) := by
  rcases State.take_cases h with ⟨rst, rfl, rfl⟩ | rfl | ⟨-, i, hi, -⟩
  · cases rst with
    | false => exact ⟨rfl, rfl, fun _ => rfl⟩
    | true => exact ⟨rfl, rfl, fun hne => absurd rfl hne⟩
  · exact ⟨rfl, rfl, fun _ => rfl⟩
  · obtain ⟨-, -, -, -, -, -, -, -, -, hqueue, hturn, hpassed⟩ := eachRegisterHasItsWriters i s t hi
    exact ⟨hqueue, hturn, fun _ => hpassed⟩

/-! What happens does not depend on what orders the events. -/

theorem State.notify_withoutSchedule (s : State) (h : Half) :
    s.withoutSchedule.notify h = (s.notify h).withoutSchedule := by
  cases h <;> rfl

theorem State.crossing_withoutSchedule (s : State) :
    s.withoutSchedule.crossing = s.crossing.withoutSchedule := by
  have hcursor : s.withoutSchedule.cursor = s.cursor := rfl
  rw [State.crossing_eq, State.crossing_eq s, hcursor]
  split_ifs
  · exact s.notify_withoutSchedule .half1
  · exact s.notify_withoutSchedule .half0
  · rfl

theorem State.drain_withoutSchedule (s : State) :
    s.withoutSchedule.drain = s.drain.withoutSchedule :=
  State.crossing_withoutSchedule (s.emit (s.bufRead s.cursor)).advanceCursor

theorem State.genSlot_withoutSchedule (s : State) :
    s.withoutSchedule.genSlot = s.genSlot.withoutSchedule := by
  rw [State.genSlot_frame, State.genSlot_frame s]
  rfl

theorem State.serve_withoutSchedule (s : State) (h : Half) :
    s.withoutSchedule.serve h = (s.serve h).withoutSchedule := by
  cases h <;> rfl

theorem State.consume_withoutSchedule (s : State) : s.consume.withoutSchedule = s.withoutSchedule := by
  unfold State.consume
  split <;> rfl

theorem exec_withoutSchedule {i : Instr} {s t : State} (h : exec i s = .next t) :
    exec i s.withoutSchedule = .next t.withoutSchedule := by
  rcases exec_cases h with ⟨rfl, low, rfl⟩ | ⟨note, v, rfl, ⟨j, hj, rfl⟩ | ⟨hnone, rfl⟩⟩ | ⟨rfl, rfl⟩ |
    ⟨rfl, henabled, rfl⟩ | ⟨rfl, hbusy, hc, hp, rfl⟩
  · rfl
  · exact execSetact_voice (s := s.withoutSchedule) hj v
  · exact execSetact_noVoice (s := t.withoutSchedule) hnone v
  · rw [execTick_eq, s.drain_withoutSchedule]
  · rw [execArbstart_enabled (s := s.withoutSchedule) henabled, ← s.serve_withoutSchedule]
    rfl
  · rw [execGenslot_ready (s := s.withoutSchedule) hbusy hc hp, s.genSlot_withoutSchedule]

theorem State.take_withoutSchedule {s t : State} {e : Event} (h : s.take e = .next t) :
    s.withoutSchedule.take e = .next t.withoutSchedule := by
  have hrst : s.withoutSchedule.rst = s.rst := rfl
  cases e with
  | clkEdge rst =>
    obtain rfl := Host.Outcome.next.inj h
    cases rst <;> rfl
  | hostCmd w =>
    simp only [State.take, State.takeHostCmd, hrst] at h ⊢
    split_ifs at h ⊢
    · exact Host.Outcome.next.inj h ▸ rfl
    · cases hd : decodeHost w with
      | op i => exact exec_withoutSchedule (by simpa only [hd] using h)
      | ignored u =>
        simp only [hd, ignoreHostWord] at h
        exact Host.Outcome.next.inj h ▸ rfl
  | agentStep w =>
    simp only [State.take, State.takeAgentStep, hrst] at h ⊢
    split at h
    · cases h
    · split_ifs at h ⊢
      · exact Host.Outcome.next.inj h ▸ rfl
      · exact exec_withoutSchedule h

/-! ## Held reset (R170) -/

/-- No step of the arbiter or the generator is enabled while `rst` is held. -/
theorem State.heldInReset.rst_eq_false {s : State} (hs : s.heldInReset)
    (h : s.arbEnabled = true ∨ s.genEnabled = true) : s.rst = false := by
  by_contra hr
  rw [hs (Bool.eq_true_of_not_eq_false hr)] at h
  rcases h with h | h <;> cases h

theorem State.heldInReset.consume {s : State} (hs : s.heldInReset) : s.consume.heldInReset := by
  intro hr
  rw [State.consume_rst] at hr
  have hpassed : s.passedNext = 0 := by simp [State.passedNext, State.enabledStep, hr]
  unfold State.consume
  split
  next _ rest _ => exact congrArg (fun u : State => { u with queue := rest }) (hs hr)
  next =>
    rw [hpassed]
    exact congrArg (fun u : State => { u with turn := s.turn + 1, passed := 0 }) (hs hr)

theorem State.heldInReset.take {s t : State} {e : Event} (hs : s.heldInReset)
    (h : s.take e = .next t) : t.heldInReset := by
  rcases State.take_cases h with ⟨rst, -, rfl⟩ | rfl | ⟨hr, i, hi, -⟩
  · cases rst with
    | false => exact fun hr => nomatch hr
    | true => exact fun _ => rfl
  · exact hs
  · obtain ⟨-, -, -, -, -, -, -, hrst, -⟩ := eachRegisterHasItsWriters i s t hi
    exact fun hheld => absurd (hheld.symm.trans (hrst.trans hr)) (by decide)

theorem State.heldInReset.step {s t : State} (hs : s.heldInReset) (h : step s = .next t) :
    t.heldInReset :=
  hs.consume.take (step_next h).2

/-! ## The free run -/

/-- A good state with nothing placed, in the reset state while `rst` is held: from here the order of
events is free for ever. -/
structure State.RunsFree (s : State) : Prop where
  good : s.Good
  held : s.heldInReset
  unplaced : s.queue = []

theorem State.RunsFree.step {s t : State} (hs : s.RunsFree) (h : step s = .next t) :
    t.RunsFree where
  good := goodIsKeptByEveryStep s t hs.good h
  held := hs.held.step h
  unplaced := by
    obtain ⟨hqueue, -⟩ := State.take_schedule (step_next h).2
    rw [hqueue, State.consume_free hs.unplaced]
    exact hs.unplaced

theorem State.run_succ {s t : State} {n : Nat} (h : Machine.step (s.run n) = .next t) :
    s.run (n + 1) = t := by
  simp [State.run, h]

section
variable {s : State} (hs : s.RunsFree)
include hs

theorem State.RunsFree.run (n : Nat) : (s.run n).RunsFree := by
  induction n with
  | zero => exact hs
  | succ n ih =>
    obtain ⟨t, ht⟩ := ih.good.step_free ih.unplaced
    rw [State.run_succ ht]
    exact ih.step ht

theorem State.RunsFree.step_run (n : Nat) : Machine.step (s.run n) = .next (s.run (n + 1)) := by
  obtain ⟨t, ht⟩ := (hs.run n).good.step_free (hs.run n).unplaced
  rw [State.run_succ ht, ht]

theorem State.RunsFree.eventOrder :
    EventOrder (fun n => (s.run n).nextEvent) fun n => (s.run n).withoutSchedule where
  cfg_legal := hs.good.cfg_legal
  takes n := by
    rw [← State.consume_withoutSchedule]
    exact State.take_withoutSchedule (step_next (hs.step_run n)).2

end

/-! ## Waits end (R139) -/

/-- How many turns more the enabled step of the arbiter or the generator may be passed over. -/
def State.waitLeft (s : State) : Nat := Config.freePatience (s.turn - s.passed) - s.passed

/-- A turn that passes over an enabled step, which stays enabled, shortens its wait: the turn on which
the wait began, and so its length, stay the same. -/
theorem State.waitLeft_lt {s t : State} {e : Event} (hq : s.queue = []) (hs : s.enabledStep = some e)
    (hne : s.nextEvent ≠ e) (h : step s = .next t) (ht : t.enabledStep = some e) :
    t.waitLeft < s.waitLeft := by
  have htake := (step_next h).2
  obtain ⟨-, hturn, hpassed⟩ := State.take_schedule htake
  have hreset : s.nextEvent ≠ .clkEdge true := by
    intro hreset
    obtain ⟨hr, -⟩ := State.take_reset (hreset ▸ htake)
    simp [State.enabledStep, hr] at ht
  obtain ⟨hwaits, hnext⟩ := State.freeChoice_passes hs (State.nextEvent_free hq ▸ hne)
  replace hpassed : t.passed = s.passed + 1 := by
    rw [hpassed hreset, State.consume_free hq, ← hnext]
  replace hturn : t.turn = s.turn + 1 := by
    rw [hturn, State.consume_free hq]
  have hbegan : t.turn - t.passed = s.turn - s.passed := by omega
  rw [State.waitLeft, State.waitLeft, hbegan]
  omega

/-- In the free run an enabled step of the arbiter or the generator does not stay enabled for ever
without being taken. -/
theorem State.RunsFree.exists_answer {s : State} (hs : s.RunsFree) (e : Event) (n : Nat) :
    ∃ m, n ≤ m ∧ ((s.run m).enabledStep ≠ some e ∨ (s.run m).nextEvent = e) := by
  by_contra! hwaits
  obtain ⟨k, hk⟩ := WellFounded.not_rel_apply_succ (r := (· < ·)) fun k => (s.run (n + k)).waitLeft
  obtain ⟨henabled, hpassed⟩ := hwaits (n + k) (Nat.le_add_right n k)
  obtain ⟨hstays, -⟩ := hwaits (n + (k + 1)) (Nat.le_add_right n _)
  exact hk (State.waitLeft_lt (hs.run _).unplaced henabled hpassed (hs.step_run _) hstays)

theorem State.RunsFree.execution {s : State} (hs : s.RunsFree) :
    Execution (fun n => (s.run n).nextEvent) fun n => (s.run n).withoutSchedule where
  toEventOrder := hs.eventOrder
  arbiter_fair n := by
    obtain ⟨m, hnm, hanswer⟩ := hs.exists_answer (.agentStep 0x9000#16) n
    refine ⟨m, hnm, hanswer.imp_left fun hidle => Bool.eq_false_iff.2 fun henabled => hidle ?_⟩
    exact State.enabledStep_arbiter ((hs.run m).held.rst_eq_false (.inl henabled)) henabled
  generator_fair n := by
    obtain ⟨m, hnm, hanswer⟩ := hs.exists_answer (.agentStep 0xA000#16) n
    refine ⟨m, hnm, hanswer.imp_left fun hidle => Bool.eq_false_iff.2 fun henabled => hidle ?_⟩
    exact State.enabledStep_generator ((hs.run m).held.rst_eq_false (.inr henabled)) henabled

/-- Settles O42: the free choice can happen (`Good.step_free`), and waits end (`RunsFree.execution`). -/
theorem freeRunNeverStops : Obligations.FreeRunNeverStops := by
  intro s hs hq
  refine ⟨hs.step_free hq, fun hheld => ?_⟩
  have hfree : s.RunsFree := ⟨hs, hheld, hq⟩
  exact ⟨hfree.step_run, hfree.execution⟩

/-! ## Every refill ends (R121, R139) -/

/-- A slot that does not end the refill takes it one position on. -/
theorem State.genSlot_genIdx_of_busy {s : State} (h : s.genSlot.genBusy = true) :
    s.genSlot.genIdx.toNat = s.genIdx.toNat + 1 := by
  obtain ⟨hidx, hbusy⟩ := s.genSlot_position
  rw [hbusy, Bool.and_eq_true, decide_eq_true_eq] at h
  have hlt := s.genIdx.isLt
  rw [hidx]
  omega

/-- The generator's step ends the refill or takes it one position on. -/
theorem State.take_genslot_genIdx {s t : State} (ht : t.genBusy = true)
    (h : s.take (.agentStep 0xA000#16) = .next t) : t.genIdx.toNat = s.genIdx.toNat + 1 := by
  obtain rfl := execGenslot_inv (State.take_agentStep_next (by decide) (by decide) h)
  exact State.genSlot_genIdx_of_busy ht

/-- While a refill goes on no event takes it back. -/
theorem State.take_genIdx_le {s t : State} {e : Event} (hs : s.genBusy = true)
    (ht : t.genBusy = true) (h : s.take e = .next t) : s.genIdx ≤ t.genIdx := by
  rcases State.take_cases h with ⟨rst, rfl, rfl⟩ | rfl | ⟨-, i, hi, -⟩
  · cases rst with
    | false => exact Nat.le_refl _
    | true => cases ht
  · exact Nat.le_refl _
  · rcases exec_cases hi with ⟨rfl, -⟩ | ⟨note, v, -, ⟨j, -, rfl⟩ | ⟨-, rfl⟩⟩ | ⟨-, rfl⟩ |
      ⟨-, henabled, -⟩ | ⟨-, -, -, -, rfl⟩
    · exact Nat.le_refl _
    · exact Nat.le_refl _
    · exact Nat.le_refl _
    · rw [State.drain_frame]
      exact Nat.le_refl _
    · obtain ⟨hidle, -⟩ := s.arbEnabled_iff.1 henabled
      exact absurd hs (Bool.eq_false_iff.1 hidle)
    · rw [BitVec.le_def, State.genSlot_genIdx_of_busy ht]
      exact Nat.le_succ _

/-- A refill that went on for ever would come to a last position, and the fair generator leaves it. -/
theorem EventOrder.exists_genBusy_eq_false {e : Nat → Event} {r : Nat → State} (ho : EventOrder e r)
    (hfair : GeneratorFair e r) (n : Nat) : ∃ m, n ≤ m ∧ (r m).genBusy = false := by
  by_contra! hbusy
  replace hbusy : ∀ m, n ≤ m → (r m).genBusy = true := fun m hm =>
    Bool.eq_true_of_not_eq_false (hbusy m hm)
  have hmono : Monotone fun k => (r (n + k)).genIdx.toFin := monotone_nat_of_le_succ fun k =>
    State.take_genIdx_le (hbusy _ (by omega)) (hbusy _ (by omega)) (ho.takes (n + k))
  obtain ⟨k, hlast⟩ := WellFoundedGT.monotone_chain_condition ⟨_, hmono⟩
  obtain ⟨m, hkm, hanswer⟩ := hfair (n + k)
  obtain ⟨j, rfl⟩ : ∃ j, m = n + j := Nat.exists_eq_add_of_le (by omega)
  rcases hanswer with hidle | hslot
  · exact Bool.eq_false_iff.1 hidle (hbusy _ (by omega))
  · have hnext := State.take_genslot_genIdx (hbusy _ (by omega)) (hslot ▸ ho.takes (n + j))
    have hsame := congrArg Fin.val ((hlast j (by omega)).symm.trans (hlast (j + 1) (by omega)))
    exact absurd (hsame.trans hnext) (Nat.ne_of_lt (Nat.lt_succ_self _))

/-- Settles O54: the refill ends in a fair order, and the run of `step` is one
(`RunsFree.execution`). -/
theorem fairGeneratorEndsEveryRefill : Obligations.FairGeneratorEndsEveryRefill := by
  refine ⟨fun e r ho hfair => ho.exists_genBusy_eq_false hfair, fun s hs hheld hq => ?_⟩
  have hexec := State.RunsFree.execution ⟨hs, hheld, hq⟩
  exact hexec.exists_genBusy_eq_false hexec.generator_fair

/-! ## Every request is answered (R131, R139) -/

/-- The arbiter's step starts a refill. -/
theorem State.take_arbstart_genBusy {s t : State} (h : s.take (.agentStep 0x9000#16) = .next t) :
    t.genBusy = true := by
  have hexec : exec .arbstart s = .next t := State.take_agentStep_next (by decide) (by decide) h
  cases henabled : s.arbEnabled with
  | false =>
    rw [execArbstart_idle henabled] at hexec
    cases hexec
  | true =>
    rw [execArbstart_enabled henabled] at hexec
    exact Host.Outcome.next.inj hexec ▸ rfl

/-- A request stays until a refill starts or a reset comes. -/
theorem State.take_pending {s t : State} {e : Event} {h : Half} (hreset : e ≠ .clkEdge true)
    (hidle : t.genBusy = false) (hp : s.pending h = true) (ht : s.take e = .next t) :
    t.pending h = true := by
  rcases State.take_cases ht with ⟨rst, rfl, rfl⟩ | rfl | ⟨-, i, hi, -⟩
  · obtain rfl : rst = false := by simpa using hreset
    cases h <;> exact hp
  · exact hp
  · rcases exec_cases hi with ⟨rfl, -⟩ | ⟨note, v, -, ⟨j, -, rfl⟩ | ⟨-, rfl⟩⟩ | ⟨-, rfl⟩ |
      ⟨-, -, rfl⟩ | ⟨-, -, -, -, rfl⟩
    · exact hp
    · cases h <;> exact hp
    · exact hp
    · rw [State.drain_pending, hp, Bool.true_or, Bool.true_or]
    · cases hidle
    · rw [State.genSlot_frame]
      cases h <;> exact hp

theorem State.arbEnabled_of_pending {s : State} {h : Half} (hidle : s.genBusy = false)
    (hp : s.pending h = true) : s.arbEnabled = true := by
  refine s.arbEnabled_iff.2 ⟨hidle, ?_⟩
  cases h with
  | half0 => exact .inl hp
  | half1 => exact .inr hp

/-- A request that were never answered would keep `ARBSTART` enabled, and the fair arbiter takes it. -/
theorem EventOrder.exists_answer {e : Nat → Event} {r : Nat → State} (ho : EventOrder e r)
    (hfair : ArbiterFair e r) {n : Nat} {h : Half} (hp : (r n).pending h = true) :
    ∃ m, n ≤ m ∧ ((r m).genBusy = true ∨ e m = .clkEdge true) := by
  by_contra! hwaits
  have hidle : ∀ m, n ≤ m → (r m).genBusy = false := fun m hm =>
    Bool.eq_false_iff.2 (hwaits m hm).1
  have hpending : ∀ m, n ≤ m → (r m).pending h = true := fun m hm => by
    induction m, hm using Nat.le_induction with
    | base => exact hp
    | succ m hm ih =>
      exact State.take_pending (hwaits m hm).2 (hidle (m + 1) (by omega)) ih (ho.takes m)
  obtain ⟨m, hnm, hdisabled | hstart⟩ := hfair n
  · exact Bool.eq_false_iff.1 hdisabled (State.arbEnabled_of_pending (hidle m hnm) (hpending m hnm))
  · have hbusy := State.take_arbstart_genBusy (hstart ▸ ho.takes m)
    exact Bool.eq_false_iff.1 (hidle (m + 1) (by omega)) hbusy

/-- Settles O55: a fair order answers the request, and the run of `step` is one
(`RunsFree.execution`). -/
theorem fairArbiterAnswersARequest : Obligations.FairArbiterAnswersARequest := by
  refine ⟨fun e r ho hfair n h => ho.exists_answer hfair, fun s hs hheld hq n h hp => ?_⟩
  have hexec := State.RunsFree.execution ⟨hs, hheld, hq⟩
  have hp' : (s.run n).withoutSchedule.pending h = true := by cases h <;> exact hp
  exact hexec.exists_answer hexec.arbiter_fair hp'

end Sys2Proof.Machine
end

section
/-!
SUPPORT. What stops a step and what the deadline observes (60_exceptions.md): refused configurations and
event words (R152, R155), steps that are not enabled (R154, R150), the sticky miss (R156) and the half
in which no refill is due (R157).
-/
namespace Sys2Proof.Machine

/-! ## No refill of the half the cursor is in (R157) -/

/-- A boundary requests the half the cursor leaves, so a tick leaves the half it enters as it was. -/
theorem State.drain_unrefilled_entered (s : State) :
    s.drain.unrefilled (halfOf s.cfg s.drain.cursor) = s.unrefilled (halfOf s.cfg s.drain.cursor) := by
  simp only [State.unrefilled, State.drain_refilling, State.drain_pending, halfOf_eq]
  split_ifs with h
  · have h128 : s.drain.cursor.toNat ≠ 128 := by omega
    simp [h128]
  · have h0 : s.drain.cursor.toNat ≠ 0 := by omega
    simp [h0]

/-- A tick keeps the cursor in its half or makes the deadline test of the half it enters (R132, R156). -/
theorem State.drain_half_or_test (s : State) :
    halfOf s.cfg s.drain.cursor = halfOf s.cfg s.cursor ∨
    s.drain.deadlineMiss = (s.deadlineMiss || s.unrefilled (halfOf s.cfg s.drain.cursor)) := by
  have hcursor := s.drain_cursor_toNat
  have hlt := s.cursor.isLt
  rw [State.drain_deadlineMiss, halfOf_eq, halfOf_eq]
  by_cases h128 : s.drain.cursor.toNat = 128
  · exact .inr (by simp [h128])
  by_cases h0 : s.drain.cursor.toNat = 0
  · exact .inr (by simp [h0])
  · exact .inl (if_congr (by omega) rfl rfl)

theorem State.drain_deadlineMiss_of_miss {s : State} (h : s.deadlineMiss = true) :
    s.drain.deadlineMiss = true := by
  rw [State.drain_deadlineMiss, h, Bool.true_or, Bool.true_or]

theorem State.quietHalf.drain {s : State} (hs : s.quietHalf) : s.drain.quietHalf := by
  intro hmiss
  have hcfg : s.drain.cfg = s.cfg := by rw [State.drain_frame]
  rw [hcfg, State.drain_unrefilled_entered]
  rcases s.drain_half_or_test with hsame | htest
  · rw [hsame]
    refine hs (Bool.eq_false_iff.2 fun hold => ?_)
    exact Bool.eq_false_iff.1 hmiss (State.drain_deadlineMiss_of_miss hold)
  · exact (Bool.or_eq_false_iff.1 (htest.symm.trans hmiss)).2

/-- The arbiter serves a half that is requested (R131). -/
theorem State.pending_servedHalf {s : State} (h : s.arbEnabled = true) :
    s.pending s.servedHalf = true := by
  obtain ⟨-, hrequest⟩ := s.arbEnabled_iff.1 h
  unfold State.servedHalf
  split_ifs with hboth h0
  · obtain ⟨h0, h1⟩ := Bool.and_eq_true_iff.1 hboth
    cases otherHalf (halfOf s.cfg s.cursor)
    · exact h0
    · exact h1
  · exact h0
  · exact hrequest.resolve_left h0

/-- The half of the cursor is not requested, so it is not the one served. -/
theorem State.quietHalf.serve {s : State} (hs : s.quietHalf) (henabled : s.arbEnabled = true) :
    (s.serve s.servedHalf).quietHalf := by
  intro hmiss
  rw [State.serve_deadlineMiss] at hmiss
  obtain ⟨hpending, -⟩ := Bool.or_eq_false_iff.1 (hs hmiss)
  have hother : s.servedHalf ≠ halfOf s.cfg s.cursor := by
    intro hserved
    exact Bool.eq_false_iff.1 hpending (hserved ▸ State.pending_servedHalf henabled)
  simp [State.unrefilled, State.refilling, hpending, hother]

/-- A slot starts no refill and requests none. -/
theorem State.quietHalf.genSlot {s : State} (hs : s.quietHalf) : s.genSlot.quietHalf := by
  rw [State.genSlot_frame]
  intro hmiss
  obtain ⟨hpending, hrefilling⟩ := Bool.or_eq_false_iff.1 (hs hmiss)
  refine Bool.or_eq_false_iff.2 ⟨?_, ?_⟩
  · exact hpending
  · simp only [State.refilling] at hrefilling ⊢
    rw [Bool.and_right_comm, hrefilling, Bool.false_and]

theorem State.quietHalf.exec {i : Instr} {s t : State} (hs : s.quietHalf) (h : exec i s = .next t) :
    t.quietHalf := by
  rcases exec_cases h with ⟨rfl, -⟩ | ⟨note, v, -, ⟨j, -, rfl⟩ | ⟨-, rfl⟩⟩ | ⟨-, rfl⟩ |
    ⟨-, henabled, rfl⟩ | ⟨-, -, -, -, rfl⟩
  · exact hs
  · exact hs
  · exact hs
  · exact hs.drain
  · exact hs.serve henabled
  · exact hs.genSlot

theorem State.quietHalf.clockEdge {s : State} (hs : s.quietHalf) (rst : Bool) :
    (s.clockEdge rst).quietHalf := by
  cases rst with
  | false => exact hs
  | true => exact State.initial_quietHalf s.cfg (s.resets + 1)

theorem State.quietHalf.consume {s : State} (hs : s.quietHalf) : s.consume.quietHalf := by
  unfold State.consume
  split <;> exact hs

/-- Settles O43: a clock edge, nothing or one operation after `consume` (`step_cases`), and each keeps
the half of the cursor quiet. -/
theorem quietHalfIsKeptByEveryStep : Obligations.QuietHalfIsKeptByEveryStep := by
  intro s t hs h
  rcases step_cases h with ⟨rst, -, rfl⟩ | rfl | ⟨-, i, hi⟩
  · exact hs.consume.clockEdge rst
  · exact hs.consume
  · exact hs.consume.exec hi

/-! ## The sticky miss (R156) -/

/-- Only a tick writes the miss, and it clears none. -/
theorem exec_deadlineMiss_of_miss {i : Instr} {s t : State} (hmiss : s.deadlineMiss = true)
    (h : exec i s = .next t) : t.deadlineMiss = true := by
  by_cases hi : i = .tick
  · subst hi
    rw [execTick_eq] at h
    exact Host.Outcome.next.inj h ▸ State.drain_deadlineMiss_of_miss hmiss
  · obtain ⟨-, -, hkept, -⟩ := eachRegisterHasItsWriters i s t h
    obtain ⟨-, -, -, hsame⟩ := hkept hi
    exact hsame.trans hmiss

/-- Settles O47: of what a step can do (`step_cases`) the reset edge alone clears the miss. -/
theorem deadlineMissIsSticky : Obligations.DeadlineMissIsSticky := by
  intro s t h hmiss hreset
  have hconsume : s.consume.deadlineMiss = true := s.consume_deadlineMiss.trans hmiss
  rcases step_cases h with ⟨rst, hedge, rfl⟩ | rfl | ⟨-, i, hi⟩
  · cases rst with
    | false => exact hconsume
    | true => exact absurd hedge hreset
  · exact hconsume
  · exact exec_deadlineMiss_of_miss hconsume hi

/-! ## Refused configurations (R152) -/

theorem voices_getElem (n : Nat) (h : n < voices.length) : voices[n] = ⟨n, h⟩ := by
  have hrange : voices = List.finRange 12 := by decide
  simp [hrange]

/-- The voice named is the lowest one whose step is not legal. -/
theorem illFormedStep_eq_some {c : Config} {j : Voice} (hj : stepLegal c j = false)
    (hlow : ∀ k < j, stepLegal c k = true) : illFormedStep c = some j := by
  refine List.find?_eq_some_iff_getElem.2
    ⟨by rw [hj]; rfl, j, j.isLt, voices_getElem .., fun k hk => ?_⟩
  rw [voices_getElem, hlow _ hk]
  rfl

theorem configLegal_of_stepLegal {c : Config} (h : ∀ j, stepLegal c j = true) :
    configLegal c = true :=
  configLegal_of_none (List.find?_eq_none.2 fun j _ => by simp [h j])

/-- Settles O13: `withConfig` guards the start and every step. -/
theorem illFormedConfigurationIsRefused : Obligations.IllFormedConfigurationIsRefused := by
  intro s
  have hlegal := fun j => (legalPhaseSteps s.cfg j).2
  refine ⟨fun j hj hlow => ?_, fun hall => ?_⟩
  · have hill := illFormedStep_eq_some (Bool.eq_false_of_not_eq_true (mt (hlegal j).1 hj))
      fun k hk => (hlegal k).2 (hlow k hk)
    exact ⟨withConfig_illFormed hill _, step_illFormed hill⟩
  · exact withConfig_legal (configLegal_of_stepLegal fun j => (hlegal j).2 (hall j)) _

/-! ## Steps that are not enabled (R154, R150) -/

/-- Settles O25: what enables `ARBSTART` is the idle generator and a request. -/
theorem stepsNotEnabledAreRejected : Obligations.StepsNotEnabledAreRejected := by
  refine fun s => ⟨execGenslot_idle, fun h => execArbstart_idle ?_⟩
  by_contra henabled
  rw [Bool.not_eq_false] at henabled
  obtain ⟨hidle, hrequest⟩ := s.arbEnabled_iff.1 henabled
  rcases h with hbusy | ⟨h0, h1⟩
  · exact Bool.eq_false_iff.1 hidle hbusy
  · simp [h0, h1] at hrequest

/-- `i` is the operation of the arbiter or of the generator, and the block has no such step in `s`: `rst`
is high (R170) or `i` is not enabled (R131, R110). -/
def State.Withheld (s : State) (i : Instr) : Prop :=
  i = .arbstart ∧ (s.rst = true ∨ s.arbEnabled = false) ∨
  i = .genslot ∧ (s.rst = true ∨ s.genEnabled = false)

/-- In a good state an operation faults only where it is not enabled: every phase has a table word. -/
theorem State.Good.exec_fault {s : State} {i : Instr} {f : Fault} (hs : s.Good)
    (h : Machine.exec i s = .fault f) : f = .notEnabled i ∧ s.Withheld i := by
  cases i with
  | nop low => cases h
  | setact note v =>
    obtain ⟨A, hA⟩ := exec_host (i := .setact note v) rfl s
    cases hA.symm.trans h
  | tick => cases h
  | arbstart =>
    cases henabled : s.arbEnabled with
    | true => cases (execArbstart_enabled henabled).symm.trans h
    | false =>
      cases (execArbstart_idle henabled).symm.trans h
      exact ⟨rfl, .inl ⟨rfl, .inr henabled⟩⟩
  | genslot =>
    cases hbusy : s.genBusy with
    | true => cases (execGenslot_next hbusy hs.cfg_legal fun j _ => hs.phases j).symm.trans h
    | false =>
      cases (execGenslot_idle hbusy).symm.trans h
      exact ⟨rfl, .inr ⟨rfl, .inr hbusy⟩⟩

/-- While `rst` is high a step other than the tick is withheld (R170). -/
theorem State.withheld_of_rst {s : State} {i : Instr} (hr : s.rst = true) (hi : i.isHost = false)
    (htick : i ≠ .tick) : s.Withheld i := by
  cases i with
  | nop low => cases hi
  | setact note v => cases hi
  | tick => exact absurd rfl htick
  | arbstart => exact .inl ⟨rfl, .inl hr⟩
  | genslot => exact .inr ⟨rfl, .inl hr⟩

/-- An event of a good state that faults is a step withheld there. -/
theorem State.Good.take_fault {s : State} {e : Event} {f : Fault} (hs : s.Good)
    (h : s.take e = .fault f) :
    ∃ i, f = .notEnabled i ∧ e = .agentStep (encode i) ∧ s.Withheld i := by
  cases e with
  | clkEdge rst => cases h
  | hostCmd w =>
    obtain ⟨A, hA⟩ := s.takeHostCmd_next w
    cases hA.symm.trans h
  | agentStep w =>
    simp only [State.take, State.takeAgentStep] at h
    split at h
    · cases h
    next i hd =>
      obtain ⟨hi, rfl⟩ := decodeEvent_eq_ok_iff.1 hd
      split_ifs at h with hr htick
      · cases h
        exact ⟨i, rfl, rfl, State.withheld_of_rst hr hi htick⟩
      · obtain ⟨hf, hwithheld⟩ := hs.exec_fault h
        exact ⟨i, hf, rfl, hwithheld⟩

theorem State.withheld_consume {s : State} {i : Instr} (h : s.consume.Withheld i) : s.Withheld i := by
  unfold State.consume at h
  split at h <;> exact h

/-- Settles O41: the free choice can happen (`Good.step_free`), so an event that faults was placed. -/
theorem goodStatesFaultOnlyWhenNotEnabled : Obligations.GoodStatesFaultOnlyWhenNotEnabled := by
  intro s f hs h
  cases hq : s.queue with
  | nil =>
    obtain ⟨t, ht⟩ := hs.step_free hq
    cases ht.symm.trans h
  | cons e rest =>
    have hnext : s.nextEvent = e := by rw [State.nextEvent, hq]
    rw [step_legal hs.cfg_legal, hnext] at h
    obtain ⟨i, rfl, rfl, hwithheld⟩ := hs.consume.take_fault h
    rcases State.withheld_consume hwithheld with ⟨rfl, hcause⟩ | ⟨rfl, hcause⟩
    · exact .inl ⟨rfl, rfl, hcause⟩
    · exact .inr ⟨rfl, rfl, hcause⟩

/-! ## Bad event words (R155) -/

theorem State.take_badEventWord (s : State) {w : Word} (h : decodeEvent w = .error (.badEventWord w)) :
    s.take (.agentStep w) = .refused (.badEventWord w) := by
  simp [State.take, State.takeAgentStep, h]

/-- Settles O11: a placed event word is decoded, a placed host word is taken. -/
theorem badEventWordsRefusedHostWordsNever : Obligations.BadEventWordsRefusedHostWordsNever := by
  intro s w rest hc
  refine ⟨fun hq hformat hbad => ?_, fun hq => ?_⟩
  · have hd : decodeEvent w = .error (.badEventWord w) := by
      rw [eventWordsNameThreeSteps w, if_neg (by omega), if_neg (by omega), if_neg (by omega)]
    exact (step_placed hc hq).trans (State.take_badEventWord _ hd)
  · obtain ⟨t, ht, -⟩ := hostWordsTouchOnlyTheFlags s w rest hc hq
    exact ⟨t, ht⟩

end Sys2Proof.Machine
end

section
/-!
SUPPORT. Reset (70_reset_and_hazards.md R170, R171, R173): what a held block does with each event, and
what the edges that sample `rst` high and low leave.
-/
namespace Sys2Proof.Machine

/-! ## The reset edge (R171, R173) -/

/-- Settles O15: the edge leaves the initial state of the next reset number, with `rst` high and what
the environment holds kept. -/
theorem resetEdgeLeavesTheResetState : Obligations.ResetEdgeLeavesTheResetState :=
  fun s _ hc hq => ⟨_, step_placed_clkEdge hc hq,
    fun j => ⟨State.initial_phase s.cfg (s.resets + 1) j, State.initial_isActive s.cfg (s.resets + 1) j⟩,
    rfl, State.initial_pending s.cfg (s.resets + 1), rfl, rfl, rfl, rfl, rfl, fun _ => rfl, rfl, rfl, rfl⟩

/-! ## The held block (R170) -/

/-- Settles O46: taking an event off the queue and taking the event each keep it (`heldInReset.step`). -/
theorem heldInResetIsKeptByEveryStep : Obligations.HeldInResetIsKeptByEveryStep :=
  fun _ _ hs => hs.step

/-- A held block ignores every host word. -/
theorem State.take_hostCmd_held {s : State} {w : Word} (hr : s.rst = true) :
    s.take (.hostCmd w) = .next s := by
  simp [State.take, State.takeHostCmd, hr]

/-- A held block loses a tick. -/
theorem State.take_tick_held {s : State} {w : Word} (hr : s.rst = true)
    (hd : decodeEvent w = .ok .tick) : s.take (.agentStep w) = .next s := by
  simp [State.take, State.takeAgentStep, hd, hr]

/-- A held block has no step of the arbiter or the generator. -/
theorem State.take_agentStep_held {s : State} {w : Word} {i : Instr} (hr : s.rst = true)
    (hd : decodeEvent w = .ok i) (hi : i ≠ .tick) :
    s.take (.agentStep w) = .fault (.notEnabled i) := by
  simp [State.take, State.takeAgentStep, hd, hr, hi]

/-- The edge that samples `rst` low leaves the reset state of R41 to a held block. -/
theorem State.heldInReset.release {s : State} (hs : s.heldInReset) (hr : s.rst = true) :
    s.clockEdge false =
      { State.initial s.cfg s.resets with queue := s.queue, turn := s.turn } :=
  congrArg (fun u : State => u.clockEdge false) (hs hr)

/-- Settles O14: the placed event happens (`step_placed`) to a block whose `rst` is high; the edge that
lowers it leaves `queue` as it is. -/
theorem heldResetIgnoresInputs : Obligations.HeldResetIgnoresInputs := by
  intro s rest hc hr
  refine ⟨fun w hq => ?_, fun hq => ?_, fun hq => ?_, fun hq => ?_, fun hs hq => ?_⟩
  · exact (step_placed hc hq).trans (State.take_hostCmd_held hr)
  · exact (step_placed hc hq).trans (State.take_tick_held hr (by decide))
  · exact (step_placed hc hq).trans (State.take_agentStep_held hr (by decide) (by decide))
  · exact (step_placed hc hq).trans (State.take_agentStep_held hr (by decide) (by decide))
  · exact (step_placed_clkEdge hc hq).trans
      (congrArg (fun u : State => Host.Outcome.next { u with queue := rest }) (hs.release hr))

end Sys2Proof.Machine
end
